-- ==== Sys2Proof/Word.lean ====
section
/-! DEFINITION. The word types of PALBLK (spec/00_scope.md R9): what the spec treats as bits. -/

namespace Sys2Proof

/-- A register of the port, a command word, an operand, a result (R9: 32 bits). -/
abbrev Word := BitVec 32

/-- One byte of the packed stream. -/
abbrev Byte := BitVec 8

/-- A byte offset of the register port (R9: 8 bits). -/
abbrev Offset := BitVec 8

/-- A palette entry, which holds a canonical key (R9, 10_state.md R34: 24 bits). -/
abbrev Key := BitVec 24

end Sys2Proof
end

