-- ==== Sys2Proof/Syntax.lean ====
section
/-! DEFINITION. The commands of PALBLK, the registers of its port, what a host can do to the port, and the spec's
notation for host programs. -/

namespace Sys2Proof

/-- The 19 commands (30_encoding.md R82). A command word holds no operand: all operands come from ARG0, ARG1 and ARG2
(R80), so no constructor has a field. -/
inductive Instr where
  | nop
  | clrerr
  | reset
  | cccCmp
  | pbClear
  | pbInsert
  | pbSeal
  | pbLookup
  | pbRead
  | iwcCalc
  | bpCfgPack
  | bpPushValue
  | bpPopByte
  | bpFlush
  | bpCfgUnpack
  | bpPushByte
  | bpPopValue
  | bpEnd
  | bpStop
  deriving DecidableEq, Repr

/-- The named registers of the port (10_state.md R21). -/
inductive PortReg where
  | ident
  | cmd
  | arg0
  | arg1
  | arg2
  | res0
  | res1
  | status
  | pcount
  | iwidth
  | cap
  | bpW
  | bpN
  | bpVcount
  | bpBcountLo
  | bpBcountHi
  | bpBneedLo
  | bpBneedHi
  | bpLimit
  | bpAccLo
  | bpAccHi
  deriving DecidableEq, Repr

/-- What the host can do (20_memory.md R60 to R63, 70_reset_and_hazards.md R230): a read or a write of `size` bytes at a
byte offset, or the reset input. Only 4-byte accesses are ever performed, so 32 bits of data are enough. Log entry 14. -/
inductive HostEvent where
  | read (size : Nat) (off : Offset)
  | write (size : Nat) (off : Offset) (data : Word)
  | hwReset
  deriving DecidableEq, Repr

/-- What PALBLK answers to an access (70_reset_and_hazards.md R241): the data of a read, the completion of a write, or the
bus error of 20_memory.md R63. -/
inductive Response where
  | data (v : Word)
  | done
  | busError
  deriving DecidableEq, Repr

/-- The register operand of a host-program line: a name of the register map or a numeric offset (30_encoding.md R86). -/
inductive RegName where
  | reg (r : PortReg)
  | offset (off : Offset)
  deriving DecidableEq, Repr

/-- A line of a host program (30_encoding.md R86). -/
inductive HostLine where
  | wr (r : RegName) (imm : Word)
  | rd (r : RegName)
  | cmd (i : Instr)
  deriving DecidableEq, Repr

/-- The pseudo-instructions of host programs (30_encoding.md R87). -/
inductive Pseudo where
  | insert (c : Word)
  | lookup (c : Word)
  | readpal (i : Word)
  | cmp (a b : Word)
  | iwc (n : Word)
  | cfgpack (n w : Word)
  | cfgunpack (n w lim : Word)
  | push (v : Word)
  | popb
  | pushb (b : Word)
  | popv
  | check
  deriving DecidableEq, Repr

end Sys2Proof
end

