-- ==== Sys2Proof/WellFormed.lean ====
section
/-! DEFINITION. Which terms of the syntax the spec admits. -/

namespace Sys2Proof

/-- Every command is well formed: a command has no operand field that could be out of range (30_encoding.md R80). What its
ARG operands must satisfy is checked when it runs, by a status code (R84). -/
def Instr.wellFormed : Instr → Bool
  | .nop | .clrerr | .reset => true
  | .cccCmp => true
  | .pbClear | .pbInsert | .pbSeal | .pbLookup | .pbRead => true
  | .iwcCalc => true
  | .bpCfgPack | .bpPushValue | .bpPopByte | .bpFlush => true
  | .bpCfgUnpack | .bpPushByte | .bpPopValue | .bpEnd | .bpStop => true

/-- A host event the port performs: a full word at an offset with off[1:0] = 0 (20_memory.md R62, 70_reset_and_hazards.md
R241), or the reset input. -/
def HostEvent.wellFormed : HostEvent → Bool
  | .read size off => decide (size = 4) && decide (off.toNat % 4 = 0)
  | .write size off _ => decide (size = 4) && decide (off.toNat % 4 = 0)
  | .hwReset => true

end Sys2Proof
end

