-- ==== Sys2Proof/Decode.lean ====
section
/-! DEFINITION. Decoding a command word, total on all 2^32 words, and the encoder (30_encoding.md R80 to R83). -/

namespace Sys2Proof

/-- Why a CMD word is illegal (30_encoding.md R83). -/
inductive DecodeError where
  /-- RSV, bits 31:8, is not zero. -/
  | reservedBits
  /-- OP, bits 7:0, is not in the opcode map of R82. -/
  | reservedOpcode
  deriving DecidableEq, Repr

/-- OP, bits 7:0 of the command word (R80). -/
def opField (cw : Word) : BitVec 8 := cw.extractLsb' 0 8

/-- RSV, bits 31:8 of the command word (R80). -/
def rsvField (cw : Word) : BitVec 24 := cw.extractLsb' 8 24

/-- The opcode map (R82). -/
def opcodeMap : List (BitVec 8 × Instr) :=
  [(0x00#8, .nop), (0x01#8, .clrerr), (0x02#8, .reset),
   (0x10#8, .cccCmp),
   (0x20#8, .pbClear), (0x21#8, .pbInsert), (0x22#8, .pbSeal), (0x23#8, .pbLookup), (0x24#8, .pbRead),
   (0x30#8, .iwcCalc),
   (0x40#8, .bpCfgPack), (0x41#8, .bpPushValue), (0x42#8, .bpPopByte), (0x43#8, .bpFlush),
   (0x48#8, .bpCfgUnpack), (0x49#8, .bpPushByte), (0x4A#8, .bpPopValue), (0x4B#8, .bpEnd), (0x4F#8, .bpStop)]

/-- The command of a CMD word, or why the word is illegal (R81, R83). -/
def decode (cw : Word) : Except DecodeError Instr :=
  if rsvField cw ≠ 0#24 then .error .reservedBits
  else
    match opcodeMap.lookup (opField cw) with
    | some i => .ok i
    | none => .error .reservedOpcode

/-- The opcode of a command, from the encoding line of its own rule (40_control.md to 44_bit_packer.md). -/
def opcode : Instr → BitVec 8
  | .nop => 0x00#8
  | .clrerr => 0x01#8
  | .reset => 0x02#8
  | .cccCmp => 0x10#8
  | .pbClear => 0x20#8
  | .pbInsert => 0x21#8
  | .pbSeal => 0x22#8
  | .pbLookup => 0x23#8
  | .pbRead => 0x24#8
  | .iwcCalc => 0x30#8
  | .bpCfgPack => 0x40#8
  | .bpPushValue => 0x41#8
  | .bpPopByte => 0x42#8
  | .bpFlush => 0x43#8
  | .bpCfgUnpack => 0x48#8
  | .bpPushByte => 0x49#8
  | .bpPopValue => 0x4A#8
  | .bpEnd => 0x4B#8
  | .bpStop => 0x4F#8

/-- The command word of a command: OP in bits 7:0 and RSV zero (R80, R86). -/
def encode (i : Instr) : Word := (opcode i).setWidth 32

/-- The command word whose low nbits bits are those of w and whose other bits are 0. -/
def tableWord (nbits w : Nat) : Word := BitVec.ofNat 32 (w % 2 ^ nbits)

/-- What the decoder reads from an opcode-table row's word: a command is one 32-bit word, taken whole by the port
(R80, 20_memory.md R62), so no byte order enters. -/
def decodeTableWord (nbits w : Nat) : Option Instr :=
  if nbits ≤ 32 then
    match decode (tableWord nbits w) with
    | .ok i => some i
    | .error _ => none
  else none

theorem decode_nop : decode 0x00000000#32 = .ok .nop := rfl
theorem decode_clrerr : decode 0x00000001#32 = .ok .clrerr := rfl
theorem decode_reset : decode 0x00000002#32 = .ok .reset := rfl
theorem decode_cccCmp : decode 0x00000010#32 = .ok .cccCmp := rfl
theorem decode_pbClear : decode 0x00000020#32 = .ok .pbClear := rfl
theorem decode_pbInsert : decode 0x00000021#32 = .ok .pbInsert := rfl
theorem decode_pbSeal : decode 0x00000022#32 = .ok .pbSeal := rfl
theorem decode_pbLookup : decode 0x00000023#32 = .ok .pbLookup := rfl
theorem decode_pbRead : decode 0x00000024#32 = .ok .pbRead := rfl
theorem decode_iwcCalc : decode 0x00000030#32 = .ok .iwcCalc := rfl
theorem decode_bpCfgPack : decode 0x00000040#32 = .ok .bpCfgPack := rfl
theorem decode_bpPushValue : decode 0x00000041#32 = .ok .bpPushValue := rfl
theorem decode_bpPopByte : decode 0x00000042#32 = .ok .bpPopByte := rfl
theorem decode_bpFlush : decode 0x00000043#32 = .ok .bpFlush := rfl
theorem decode_bpCfgUnpack : decode 0x00000048#32 = .ok .bpCfgUnpack := rfl
theorem decode_bpPushByte : decode 0x00000049#32 = .ok .bpPushByte := rfl
theorem decode_bpPopValue : decode 0x0000004A#32 = .ok .bpPopValue := rfl
theorem decode_bpEnd : decode 0x0000004B#32 = .ok .bpEnd := rfl
theorem decode_bpStop : decode 0x0000004F#32 = .ok .bpStop := rfl

/-- No two rows of the opcode map have the same opcode. -/
theorem opcodeMap_no_overlap : opcodeMap.Pairwise (fun a b => a.1 ≠ b.1) := by decide

end Sys2Proof
end

