-- ==== Sys2Proof/Config.lean ====
section
/-! DEFINITION. What a build of PALBLK fixes and the spec leaves open (00_scope.md R7, 20_memory.md R60). The
constants have no body: a statement about them holds for every build. -/

namespace Sys2Proof.Config

/-- PAL_CAP less one. The spec only bounds PAL_CAP (R7: 1 ≤ PAL_CAP ≤ 2^24), so nothing else is known of it. Log entry 1. -/
opaque palCapPred : Fin 16777216

/-- PAL_CAP: the number of entries the palette memory holds (00_scope.md R7, 10_state.md R30). -/
def palCap : Nat := palCapPred.val + 1

/-- PALBLK_BASE: where the port stands in the host's address space. No rule of the spec reads it (20_memory.md R60) and
no definition of the model does. Log entry 13. -/
opaque palblkBase : Nat

theorem palCap_pos : 1 ≤ palCap := Nat.le_add_left 1 _

theorem palCap_le : palCap ≤ 2 ^ 24 := palCapPred.isLt

end Sys2Proof.Config
end

