-- ==== Sys2Proof/Machine/State.lean ====
section
/-! DEFINITION. The state of PALBLK (10_state.md R20), and of one run of it (70_reset_and_hazards.md R240), as plain data. -/

namespace Sys2Proof.Machine

/-- The status codes (60_exceptions.md R200). The codes 0x0D to 0xFF are reserved and never produced, so they have no
constructor. Log entry 8. -/
inductive StatusCode where
  | ok
  | eInvalidInput
  | eInvalidPaletteSize
  | eTruncatedData
  | eIndexOutOfRange
  | ePaletteOverflow
  | eIllegalCmd
  | eBadState
  | eBadOperand
  | eNotFound
  | eCount
  | eOverrun
  | eUnderrun
  deriving DecidableEq, Repr

/-- The classes of status codes (60_exceptions.md R200). -/
inductive StatusClass where
  | success
  | error
  | hold
  deriving DecidableEq, Repr

/-- The palette builder's state machine (10_state.md R31). The value 3 is never produced (R20). Log entry 8. -/
inductive PbState where
  | idle
  | building
  | sealed
  deriving DecidableEq, Repr

/-- The gearbox mode (10_state.md R36). The value 3 is never produced (R20). Log entry 8. -/
inductive BpMode where
  | off
  | pack
  | unpack
  deriving DecidableEq, Repr

/-- The palette memory: pairs of an entry's index and the entry, indexes strictly rising, no entry equal to what an
unlisted index reads as (Machine/Ops.lean: palUnlisted). -/
abbrev Palette := List (Nat × Key)

/-- The architectural state (10_state.md R20), the bus-error record of 60_exceptions.md R212, and the two sides of the
host's access sequence (70_reset_and_hazards.md R240): what it will still issue and what it has been answered. -/
structure State where
  /-- ARG0 (R22) -/
  arg0 : Word
  /-- ARG1 (R22) -/
  arg1 : Word
  /-- ARG2 (R22) -/
  arg2 : Word
  /-- RES0 (R23) -/
  res0 : Word
  /-- RES1 (R23) -/
  res1 : Word
  /-- ERR (R25) -/
  err : Bool
  /-- LASTCODE (R26) -/
  lastCode : StatusCode
  /-- FIRSTERR (R27) -/
  firstErr : StatusCode
  /-- PB_STATE (R31) -/
  pbState : PbState
  /-- PCOUNT (R32) -/
  pcount : BitVec 25
  /-- PAL (R32 to R34) -/
  pal : Palette
  /-- IWIDTH (R35) -/
  iwidth : BitVec 5
  /-- BP_MODE (R36) -/
  bpMode : BpMode
  /-- W (R37) -/
  w : BitVec 6
  /-- N (R37) -/
  n : Word
  /-- VCOUNT (R38) -/
  vcount : Word
  /-- BCOUNT (R38) -/
  bcount : BitVec 64
  /-- BNEED (R39) -/
  bneed : BitVec 64
  /-- LIMIT (R40) -/
  limit : Word
  /-- ACC (R41) -/
  acc : BitVec 40
  /-- ACC_BITS (R41) -/
  accBits : BitVec 6
  /-- END (R42) -/
  ended : Bool
  /-- FLUSHED (R42) -/
  flushed : Bool
  /-- The fault bit of 60_exceptions.md R212, never cleared. Log entry 5. -/
  busFault : Bool
  /-- The answers given to the host so far, oldest first (R240). The model's own. Log entry 4. -/
  responses : List Response
  /-- The host events still to come, oldest first (R240). The model's own. Log entry 2. -/
  pending : List HostEvent
  deriving DecidableEq, Repr

/-- No outcome of PALBLK stops the machine: a failing command ends with a status code and a next state (60_exceptions.md
R203, R205), and a bus error changes no state and is recorded in State.busFault (R212). So nobody raises a fault, and the
type has no constructor. Log entry 16. -/
inductive Fault : Type
  deriving DecidableEq, Repr

/-- Why the model would give a command no meaning. -/
inductive Refusal where
  /-- Raised by exec's arm of a command whose meaning is not written. Safe. No arm raises it: all 19 commands have their
  meaning. -/
  | notModelled (mnemonic : String)
  deriving DecidableEq, Repr

/-- The machine right after hardware reset (10_state.md R45, 70_reset_and_hazards.md R230). PAL is unspecified there: with
nothing listed every entry reads 0, which no command can observe (R32; log entry 6). The last three fields are the run's
(log entries 2, 4, 5). -/
def State.reset : State where
  arg0 := 0#32
  arg1 := 0#32
  arg2 := 0#32
  res0 := 0#32
  res1 := 0#32
  err := false
  lastCode := .ok
  firstErr := .ok
  pbState := .idle
  pcount := 0#25
  pal := []
  iwidth := 0#5
  bpMode := .off
  w := 0#6
  n := 0#32
  vcount := 0#32
  bcount := 0#64
  bneed := 0#64
  limit := 0#32
  acc := 0#40
  accBits := 0#6
  ended := false
  flushed := false
  busFault := false
  responses := []
  pending := []

end Sys2Proof.Machine
end

