-- ==== Sys2Proof/Machine/Operands.lean ====
section
/-! DEFINITION. Operand forms and the value functions of the commands: colours and their key (00_scope.md R12,
41_comparator.md R110), the operands of 30_encoding.md R84, byte lanes (20_memory.md R64), the index width
(43_index_width.md R140) and the stream's byte count (10_state.md R39). -/

namespace Sys2Proof.Machine

/-- A colour: red, green and blue, 8 bits each (R12). -/
structure Colour where
  r : Byte
  g : Byte
  b : Byte
  deriving DecidableEq, Repr

/-- color(c): the colour of a 32-bit colour word. Bits 31:24 are ignored (R12, 30_encoding.md R85). -/
def colourOf (c : Word) : Colour where
  r := c.extractLsb' 16 8
  g := c.extractLsb' 8 8
  b := c.extractLsb' 0 8

/-- word(r, g, b): the colour word with bits 31:24 zero (R12). -/
def colourWord (c : Colour) : Word :=
  BitVec.ofNat 32 (c.r.toNat * 2 ^ 16 + c.g.toNat * 2 ^ 8 + c.b.toNat)

/-- The canonical key r*65536 + g*256 + b (41_comparator.md R110). -/
def colourKey (c : Colour) : Key :=
  BitVec.ofNat 24 (c.r.toNat * 65536 + c.g.toNat * 256 + c.b.toNat)

/-- The key of a colour operand, as the commands' pseudocode takes it: ARG[23:0] (R110, R112, R122, R125). -/
def keyOperand (arg : Word) : Key := arg.extractLsb' 0 24

/-- The greatest stream width (00_scope.md R8). -/
def wMax : Nat := 32

/-- The width operand of BP_CFG_PACK and BP_CFG_UNPACK: the whole of ARG1, refused above 32 (30_encoding.md R84). -/
def widthOperand (arg : Word) : Option (BitVec 6) :=
  if arg.toNat ≤ wMax then some (arg.setWidth 6) else none

/-- The byte operand of BP_PUSH_BYTE: ARG0[7:0], refused when bits 31:8 are not zero (30_encoding.md R84). -/
def byteOperand (arg : Word) : Option Byte :=
  if arg.extractLsb' 8 24 = 0#24 then some (arg.extractLsb' 0 8) else none

/-- The value operand of BP_PUSH_VALUE: the whole of ARG0, refused when it does not fit in the stream's width
(30_encoding.md R84, 44_bit_packer.md R152). -/
def valueOperand (w : BitVec 6) (arg : Word) : Option Word :=
  if arg.toNat < 2 ^ w.toNat then some arg else none

/-- Byte lane k of a register, bits 8k+7:8k (20_memory.md R64). -/
def byteLane (v : Word) (k : Fin 4) : Byte := v.extractLsb' (8 * k.val) 8

/-- The number of bits in the binary representation of v, 0 for 0 (00_scope.md R10). -/
def bitlen (v : Nat) : Nat := if v = 0 then 0 else v.log2 + 1

/-- iw(n) = bitlen(n - 1), the index width of a palette of n entries (43_index_width.md R140; n ≥ 1). -/
def indexWidth (n : Nat) : Nat := bitlen (n - 1)

/-- BNEED = (N*W + 7) div 8, exact (10_state.md R39). -/
def bytesNeeded (n : Word) (w : BitVec 6) : BitVec 64 :=
  BitVec.ofNat 64 ((n.toNat * w.toNat + 7) / 8)

/-- Bits 31:0 of a 64-bit counter. -/
def loWord (v : BitVec 64) : Word := v.extractLsb' 0 32

/-- Bits 63:32 of a 64-bit counter. -/
def hiWord (v : BitVec 64) : Word := v.extractLsb' 32 32

end Sys2Proof.Machine
end

