-- ==== Sys2Proof/Machine/Ops.lean ====
section
/-! DEFINITION. The shared operations: how a command ends (30_encoding.md R81, 60_exceptions.md R203), reset (10_state.md
R45), the palette memory (20_memory.md R61), the palette position lb (42_palette_builder.md R120), and the port's
answers. -/

namespace Sys2Proof.Machine

/-- What a command or an access answers. -/
abbrev Result := Host.Outcome State Fault Refusal

/-- The class of a status code (60_exceptions.md R200). -/
def codeClass : StatusCode → StatusClass
  | .ok => .success
  | .eInvalidInput => .error
  | .eInvalidPaletteSize => .error
  | .eTruncatedData => .error
  | .eIndexOutOfRange => .error
  | .ePaletteOverflow => .error
  | .eIllegalCmd => .error
  | .eBadState => .error
  | .eBadOperand => .error
  | .eNotFound => .error
  | .eCount => .error
  | .eOverrun => .hold
  | .eUnderrun => .hold

/-- What a raise records: LASTCODE always, ERR and FIRSTERR for a code of class error only, FIRSTERR only when it is 0x00
(60_exceptions.md R203). Every other element keeps its value. -/
def report (c : StatusCode) (s : State) : State :=
  if codeClass c = .error then
    { s with lastCode := c, err := true, firstErr := if s.firstErr = .ok then c else s.firstErr }
  else { s with lastCode := c }

/-- raise E_X ends the command with status code E_X (00_scope.md R11, 60_exceptions.md R203). It takes the place of
exception entry: PALBLK has no trap entry and no return from one (R205). -/
def raise (c : StatusCode) (s : State) : Result := .next (report c s)

/-- The end of a command that does not raise: LASTCODE <- 0x00 (30_encoding.md R81). ERR and FIRSTERR stay. -/
def success (s : State) : State := { s with lastCode := .ok }

/-- A command that took effect, with the elements its rule writes already written in s. -/
def succeed (s : State) : Result := .next (success s)

/-- Every state element at its reset value (10_state.md R45), for RESET (40_control.md R102) and hardware reset
(70_reset_and_hazards.md R230). What belongs to the host and its run stays: the events to come, the answers given, and the
fault bit, which is never cleared (60_exceptions.md R212). Log entries 5, 6, 9. -/
def resetElements (s : State) : State :=
  { State.reset with busFault := s.busFault, responses := s.responses, pending := s.pending }

/-- What a palette entry that nothing has written reads as. DESIGN CHOICE, log entry 6: the spec leaves it unspecified and
no command can observe it (10_state.md R32, R45; 92_eei_decisions.md D16). -/
def palUnlisted : Key := 0#24

/-- PAL[i]. -/
def palGet (m : Palette) (i : Nat) : Key :=
  match m with
  | [] => palUnlisted
  | (j, v) :: rest => if i = j then v else palGet rest i

/-- PAL[i] <- k, in canonical form: the pair stands between the smaller and the greater indexes, and is left out when k is
what an unlisted entry reads as. -/
def palSet (m : Palette) (i : Nat) (k : Key) : Palette :=
  m.filter (fun c => decide (c.1 < i)) ++ (if k = palUnlisted then [] else [(i, k)]) ++ m.filter (fun c => decide (i < c.1))

/-- The canonical form of the palette memory. -/
def palWf (m : Palette) : Bool :=
  decide (m.Pairwise (fun a b => a.1 < b.1)) && m.all (fun c => decide (c.2 ≠ palUnlisted))

/-- The loop `for i from p + m down to p + 1: PAL[i] <- PAL[i-1]` (42_palette_builder.md R122), m entries. -/
def palShiftUp (pal : Palette) (p : Nat) : Nat → Palette
  | 0 => pal
  | m + 1 => palShiftUp (palSet pal (p + m + 1) (palGet pal (p + m))) p m

/-- The valid entries PAL[0] to PAL[PCOUNT-1] (10_state.md R32). -/
def palEntries (s : State) : List Key := (List.range s.pcount.toNat).map (palGet s.pal)

/-- lb(k): the number of valid entries whose key is less than k (42_palette_builder.md R120). -/
def lowerBound (s : State) (k : Key) : Nat := (palEntries s).countP (fun e => decide (e < k))

/-- k is present iff lb(k) < PCOUNT and PAL[lb(k)] = k (42_palette_builder.md R120). -/
def palPresent (s : State) (k : Key) : Bool :=
  decide (lowerBound s k < s.pcount.toNat) && decide (palGet s.pal (lowerBound s k) = k)

/-- PALBLK's answer to an access, kept for the run's observation (70_reset_and_hazards.md R240). Log entry 4. -/
def answer (r : Response) (s : State) : State := { s with responses := s.responses ++ [r] }

/-- The bus-error response: no state change but the record of it (20_memory.md R63, 60_exceptions.md R212). Log entry 5. -/
def busError (s : State) : State := { answer .busError s with busFault := true }

end Sys2Proof.Machine
end

