-- ==== Sys2Proof/Machine/Comparator.lean ====
section
/-! DEFINITION. The canonical colour comparator (41_comparator.md). -/

namespace Sys2Proof.Machine

/-- The comparator's output: 1, 2 or 4 for less, equal or greater (R112). -/
def orderCode (ka kb : Key) : Word := if ka < kb then 1#32 else if ka = kb then 2#32 else 4#32

/-- CCC_CMP (R112). -/
def execCccCmp (s : State) : Result :=
  let ka := keyOperand s.arg0
  let kb := keyOperand s.arg1
  succeed { s with res0 := orderCode ka kb, res1 := ka.setWidth 32 }

end Sys2Proof.Machine
end

