-- ==== Sys2Proof/Machine/Control.lean ====
section
/-! DEFINITION. The control commands (40_control.md). -/

namespace Sys2Proof.Machine

/-- NOP (R100). -/
def execNop (s : State) : Result := succeed s

/-- CLRERR (R101). -/
def execClrerr (s : State) : Result := succeed { s with err := false, firstErr := .ok }

/-- RESET (R102). -/
def execReset (s : State) : Result := succeed (resetElements s)

end Sys2Proof.Machine
end

