-- ==== Sys2Proof/Machine/Gearbox.lean ====
section
/-! DEFINITION. The bit packer and unpacker, a 40-bit gearbox (44_bit_packer.md). -/

namespace Sys2Proof.Machine

/-- An empty stream of mode m, width w, N = n and bound limit, with its byte count in RES1:RES0 (R151, R157). -/
def freshStream (m : BpMode) (w : BitVec 6) (n limit : Word) (s : State) : State :=
  let need := bytesNeeded n w
  { s with
    bpMode := m, w := w, n := n, vcount := 0#32, bcount := 0#64, bneed := need, limit := limit
    acc := 0#40, accBits := 0#6, ended := false, flushed := false
    res0 := loWord need, res1 := hiWord need }

/-- The gearbox OFF and empty (R162). -/
def stopStream (s : State) : State :=
  { s with
    bpMode := .off, w := 0#6, n := 0#32, vcount := 0#32, bcount := 0#64, bneed := 0#64, limit := 0#32
    acc := 0#40, accBits := 0#6, ended := false, flushed := false }

/-- ACC | (v << ACC_BITS) (R152, R160). -/
def accIn (acc : BitVec 40) (accBits : BitVec 6) (v : Word) : BitVec 40 :=
  acc ||| (v.setWidth 40 <<< accBits.toNat)

/-- BP_CFG_PACK (R151). -/
def execBpCfgPack (s : State) : Result :=
  match widthOperand s.arg1 with
  | none => raise .eBadOperand s
  | some w => succeed (freshStream .pack w s.arg0 0#32 s)

/-- BP_PUSH_VALUE (R152). -/
def execBpPushValue (s : State) : Result :=
  if s.bpMode ≠ .pack then raise .eBadState s
  else
    match valueOperand s.w s.arg0 with
    | none => raise .eBadOperand s
    | some v =>
      if s.vcount = s.n then raise .eCount s
      else if 8 ≤ s.accBits.toNat then raise .eOverrun s
      else
        succeed { s with
          acc := accIn s.acc s.accBits v
          accBits := s.accBits + s.w
          vcount := s.vcount + 1#32 }

/-- BP_POP_BYTE (R153). -/
def execBpPopByte (s : State) : Result :=
  if s.bpMode ≠ .pack then raise .eBadState s
  else if s.accBits.toNat < 8 then raise .eUnderrun s
  else
    succeed { s with
      res0 := (s.acc.extractLsb' 0 8).setWidth 32
      acc := s.acc >>> 8
      accBits := s.accBits - 8#6
      bcount := s.bcount + 1#64 }

/-- BP_FLUSH (R154). -/
def execBpFlush (s : State) : Result :=
  if s.bpMode ≠ .pack then raise .eBadState s
  else if s.vcount ≠ s.n then raise .eCount s
  else if 8 ≤ s.accBits.toNat then raise .eOverrun s
  else succeed { s with accBits := if s.accBits = 0#6 then 0#6 else 8#6, flushed := true }

/-- BP_CFG_UNPACK (R157). -/
def execBpCfgUnpack (s : State) : Result :=
  match widthOperand s.arg1 with
  | none => raise .eBadOperand s
  | some w => succeed (freshStream .unpack w s.arg0 s.arg2 s)

/-- BP_END (R158). -/
def execBpEnd (s : State) : Result :=
  if s.bpMode ≠ .unpack then raise .eBadState s
  else succeed { s with ended := true }

/-- BP_PUSH_BYTE (R160). -/
def execBpPushByte (s : State) : Result :=
  if s.bpMode ≠ .unpack ∨ s.ended = true then raise .eBadState s
  else
    match byteOperand s.arg0 with
    | none => raise .eBadOperand s
    | some b =>
      if s.bcount = s.bneed then raise .eCount s
      else if 32 < s.accBits.toNat then raise .eOverrun s
      else
        succeed { s with
          acc := accIn s.acc s.accBits (b.setWidth 32)
          accBits := s.accBits + 8#6
          bcount := s.bcount + 1#64 }

/-- BP_POP_VALUE (R161). -/
def execBpPopValue (s : State) : Result :=
  let v : Word := BitVec.ofNat 32 (s.acc.toNat % 2 ^ s.w.toNat)
  if s.bpMode ≠ .unpack then raise .eBadState s
  else if s.vcount = s.n then raise .eCount s
  else if s.accBits.toNat < s.w.toNat then
    if s.ended = true then raise .eTruncatedData s else raise .eUnderrun s
  else if s.limit ≠ 0#32 ∧ s.limit ≤ v then raise .eIndexOutOfRange s
  else
    succeed { s with
      res0 := v
      acc := s.acc >>> s.w.toNat
      accBits := s.accBits - s.w
      vcount := s.vcount + 1#32 }

/-- BP_STOP (R162). -/
def execBpStop (s : State) : Result := succeed (stopStream s)

end Sys2Proof.Machine
end

