-- ==== Sys2Proof/Machine/IndexWidth.lean ====
section
/-! DEFINITION. The index width calculator (43_index_width.md). -/

namespace Sys2Proof.Machine

/-- IWC_CALC (R141). -/
def execIwcCalc (s : State) : Result :=
  let n := s.arg0.toNat
  if n = 0 ∨ 2 ^ 24 < n then raise .eInvalidPaletteSize s
  else succeed { s with res0 := BitVec.ofNat 32 (indexWidth n) }

end Sys2Proof.Machine
end

