-- ==== Sys2Proof/Machine/PaletteBuilder.lean ====
section
/-! DEFINITION. The palette builder, an insertion sorter (42_palette_builder.md). -/

namespace Sys2Proof.Machine

/-- PB_CLEAR (R121). Old PAL contents remain in the memory. -/
def execPbClear (s : State) : Result :=
  succeed { s with pbState := .building, pcount := 0#25, iwidth := 0#5 }

/-- The palette after a new key k goes in at position p: entries from p on move up by one, then PAL[p] <- k (R122). -/
def palInsertAt (s : State) (p : Nat) (k : Key) : Palette :=
  palSet (palShiftUp s.pal p (s.pcount.toNat - p)) p k

/-- PB_INSERT in a build whose palette memory holds cap entries (R122; 00_scope.md R7 makes PAL_CAP an argument). The
palette is full when PCOUNT has reached cap. Log entry 7. -/
def insertColour (cap : Nat) (s : State) : Result :=
  let k := keyOperand s.arg0
  let p := lowerBound s k
  if s.pbState ≠ .building then raise .eBadState s
  else if palPresent s k then succeed { s with res0 := BitVec.ofNat 32 p, res1 := 1#32 }
  else if cap ≤ s.pcount.toNat then raise .ePaletteOverflow s
  else
    succeed { s with
      pal := palInsertAt s p k
      pcount := s.pcount + 1#25
      res0 := BitVec.ofNat 32 p
      res1 := 0#32 }

/-- PB_INSERT (R122). -/
def execPbInsert (s : State) : Result := insertColour Config.palCap s

/-- PB_SEAL (R124). -/
def execPbSeal (s : State) : Result :=
  let iw : BitVec 5 := BitVec.ofNat 5 (indexWidth s.pcount.toNat)
  if s.pbState ≠ .building then raise .eBadState s
  else if s.pcount = 0#25 then raise .eInvalidInput s
  else
    succeed { s with
      iwidth := iw
      pbState := .sealed
      res0 := s.pcount.setWidth 32
      res1 := iw.setWidth 32 }

/-- PB_LOOKUP (R125). -/
def execPbLookup (s : State) : Result :=
  let k := keyOperand s.arg0
  if s.pbState ≠ .sealed then raise .eBadState s
  else if palPresent s k then succeed { s with res0 := BitVec.ofNat 32 (lowerBound s k) }
  else raise .eNotFound s

/-- PB_READ (R126). -/
def execPbRead (s : State) : Result :=
  let i := s.arg0.toNat
  if s.pbState ≠ .sealed then raise .eBadState s
  else if s.pcount.toNat ≤ i then raise .eIndexOutOfRange s
  else succeed { s with res0 := (palGet s.pal i).setWidth 32 }

end Sys2Proof.Machine
end

