-- ==== Sys2Proof/Machine/Dispatch.lean ====
section
/-! DEFINITION. One arm per command (30_encoding.md R81, R82). -/

namespace Sys2Proof.Machine

def exec (i : Instr) (s : State) : Host.Outcome State Fault Refusal :=
  match i with
  | .nop => Sys2Proof.Machine.execNop s
  | .clrerr => Sys2Proof.Machine.execClrerr s
  | .reset => Sys2Proof.Machine.execReset s
  | .cccCmp => Sys2Proof.Machine.execCccCmp s
  | .pbClear => Sys2Proof.Machine.execPbClear s
  | .pbInsert => Sys2Proof.Machine.execPbInsert s
  | .pbSeal => Sys2Proof.Machine.execPbSeal s
  | .pbLookup => Sys2Proof.Machine.execPbLookup s
  | .pbRead => Sys2Proof.Machine.execPbRead s
  | .iwcCalc => Sys2Proof.Machine.execIwcCalc s
  | .bpCfgPack => Sys2Proof.Machine.execBpCfgPack s
  | .bpPushValue => Sys2Proof.Machine.execBpPushValue s
  | .bpPopByte => Sys2Proof.Machine.execBpPopByte s
  | .bpFlush => Sys2Proof.Machine.execBpFlush s
  | .bpCfgUnpack => Sys2Proof.Machine.execBpCfgUnpack s
  | .bpPushByte => Sys2Proof.Machine.execBpPushByte s
  | .bpPopValue => Sys2Proof.Machine.execBpPopValue s
  | .bpEnd => Sys2Proof.Machine.execBpEnd s
  | .bpStop => Sys2Proof.Machine.execBpStop s

end Sys2Proof.Machine
end

