-- ==== Sys2Proof/Machine/Flags.lean ====
section
/-! DEFINITION. STATUS and its flags, computed from the state whenever they are read (10_state.md R28, R29), and the
numbers of the codes, states and modes (60_exceptions.md R200, 10_state.md R20). -/

namespace Sys2Proof.Machine

/-- The 8-bit number of a status code (60_exceptions.md R200). -/
def codeByte : StatusCode → BitVec 8
  | .ok => 0x00#8
  | .eInvalidInput => 0x01#8
  | .eInvalidPaletteSize => 0x02#8
  | .eTruncatedData => 0x03#8
  | .eIndexOutOfRange => 0x04#8
  | .ePaletteOverflow => 0x05#8
  | .eIllegalCmd => 0x06#8
  | .eBadState => 0x07#8
  | .eBadOperand => 0x08#8
  | .eNotFound => 0x09#8
  | .eCount => 0x0A#8
  | .eOverrun => 0x0B#8
  | .eUnderrun => 0x0C#8

/-- PB_STATE as its 2-bit number (10_state.md R20). -/
def pbStateBits : PbState → BitVec 2
  | .idle => 0#2
  | .building => 1#2
  | .sealed => 2#2

/-- BP_MODE as its 2-bit number (10_state.md R20). -/
def bpModeBits : BpMode → BitVec 2
  | .off => 0#2
  | .pack => 1#2
  | .unpack => 2#2

/-- BP_DONE (10_state.md R29). -/
def bpDone (s : State) : Bool :=
  match s.bpMode with
  | .off => false
  | .pack => decide (s.vcount = s.n) && s.flushed && decide (s.accBits = 0#6)
  | .unpack => decide (s.vcount = s.n)

/-- BP_BYTE_AVAIL (10_state.md R28). -/
def bpByteAvail (s : State) : Bool := decide (s.bpMode = .pack) && decide (8 ≤ s.accBits.toNat)

/-- BP_END (10_state.md R28). -/
def bpEndFlag (s : State) : Bool := decide (s.bpMode = .unpack) && s.ended

/-- BP_FLUSHED (10_state.md R28). -/
def bpFlushedFlag (s : State) : Bool := decide (s.bpMode = .pack) && s.flushed

/-- BP_VALUE_AVAIL (10_state.md R28). -/
def bpValueAvail (s : State) : Bool :=
  decide (s.bpMode = .unpack) && decide (s.vcount < s.n) && decide (s.w ≤ s.accBits)

/-- STATUS, from bit 31 down: FIRSTERR, LASTCODE, ACC_BITS, BP_MODE, PB_STATE, BP_VALUE_AVAIL, BP_FLUSHED, BP_END,
BP_BYTE_AVAIL, BP_DONE, ERR (10_state.md R28). -/
def statusWord (s : State) : Word :=
  codeByte s.firstErr ++ codeByte s.lastCode ++ s.accBits ++ bpModeBits s.bpMode ++ pbStateBits s.pbState ++
    BitVec.ofBool (bpValueAvail s) ++ BitVec.ofBool (bpFlushedFlag s) ++ BitVec.ofBool (bpEndFlag s) ++
    BitVec.ofBool (bpByteAvail s) ++ BitVec.ofBool (bpDone s) ++ BitVec.ofBool s.err

end Sys2Proof.Machine
end

