-- ==== Sys2Proof/Machine/Port.lean ====
section
/-! DEFINITION. The register port: its map, reads, writes, command dispatch, bus errors and the reset input (10_state.md
R21, R43, R44; 20_memory.md R60 to R63; 30_encoding.md R81; 70_reset_and_hazards.md R230). -/

namespace Sys2Proof.Machine

/-- The constant of the ID register (10_state.md R21). -/
def idValue : Word := 0x50414C31#32

/-- The offset of each named register (10_state.md R21). -/
def regOffset : PortReg → Offset
  | .ident => 0x00#8
  | .cmd => 0x04#8
  | .arg0 => 0x08#8
  | .arg1 => 0x0C#8
  | .arg2 => 0x10#8
  | .res0 => 0x14#8
  | .res1 => 0x18#8
  | .status => 0x1C#8
  | .pcount => 0x20#8
  | .iwidth => 0x24#8
  | .cap => 0x28#8
  | .bpW => 0x2C#8
  | .bpN => 0x30#8
  | .bpVcount => 0x34#8
  | .bpBcountLo => 0x38#8
  | .bpBcountHi => 0x3C#8
  | .bpBneedLo => 0x40#8
  | .bpBneedHi => 0x44#8
  | .bpLimit => 0x48#8
  | .bpAccLo => 0x4C#8
  | .bpAccHi => 0x50#8

/-- The named registers in the order of the map (10_state.md R21). -/
def portRegs : List PortReg :=
  [.ident, .cmd, .arg0, .arg1, .arg2, .res0, .res1, .status, .pcount, .iwidth, .cap, .bpW, .bpN, .bpVcount,
   .bpBcountLo, .bpBcountHi, .bpBneedLo, .bpBneedHi, .bpLimit, .bpAccLo, .bpAccHi]

/-- The named register at an offset; none for the reserved offsets (10_state.md R21, R44). -/
def regAt (off : Offset) : Option PortReg := portRegs.find? (fun r => decide (regOffset r = off))

/-- The content column of the map, in a build whose palette memory holds cap entries (10_state.md R21). CMD reads 0 (R44). -/
def regContent (cap : Nat) (s : State) : PortReg → Word
  | .ident => idValue
  | .cmd => 0#32
  | .arg0 => s.arg0
  | .arg1 => s.arg1
  | .arg2 => s.arg2
  | .res0 => s.res0
  | .res1 => s.res1
  | .status => statusWord s
  | .pcount => s.pcount.setWidth 32
  | .iwidth => s.iwidth.setWidth 32
  | .cap => BitVec.ofNat 32 cap
  | .bpW => s.w.setWidth 32
  | .bpN => s.n
  | .bpVcount => s.vcount
  | .bpBcountLo => loWord s.bcount
  | .bpBcountHi => hiWord s.bcount
  | .bpBneedLo => loWord s.bneed
  | .bpBneedHi => hiWord s.bneed
  | .bpLimit => s.limit
  | .bpAccLo => s.acc.extractLsb' 0 32
  | .bpAccHi => (s.acc.extractLsb' 32 8).setWidth 32

/-- MemRead(off, 4): a reserved offset reads 0 (10_state.md R44). -/
def portRead (off : Offset) (s : State) : Word :=
  match regAt off with
  | some r => regContent Config.palCap s r
  | none => 0#32

/-- A write to CMD: run the command of the word, or raise E_ILLEGAL_CMD (30_encoding.md R81, R83). -/
def command (cw : Word) (s : State) : Result :=
  match decode cw with
  | .ok i => exec i s
  | .error _ => raise .eIllegalCmd s

/-- MemWrite(off, 4, v): ARG registers store every bit (10_state.md R22), CMD runs a command, and writes to read-only
registers and reserved offsets are ignored (R44). -/
def portWrite (off : Offset) (v : Word) (s : State) : Result :=
  match regAt off with
  | some .cmd => command v s
  | some .arg0 => .next { s with arg0 := v }
  | some .arg1 => .next { s with arg1 := v }
  | some .arg2 => .next { s with arg2 := v }
  | _ => .next s

/-- The port performs an access of 4 bytes at an offset with off[1:0] = 0, and no other (20_memory.md R62, R63). -/
def performs (size : Nat) (off : Offset) : Bool := decide (size = 4) && decide (off.extractLsb' 0 2 = 0#2)

/-- One host event: an access is performed and answered, or answered by a bus error (20_memory.md R60 to R69); the reset
input sets every element to its reset value in one step and answers nothing (70_reset_and_hazards.md R230; log entry 9). -/
def hostEvent (e : HostEvent) (s : State) : Result :=
  match e with
  | .read size off =>
    if performs size off then .next (answer (.data (portRead off s)) s) else .next (busError s)
  | .write size off v =>
    if performs size off then portWrite off v (answer .done s) else .next (busError s)
  | .hwReset => .next (resetElements s)

end Sys2Proof.Machine
end

