-- ==== Sys2Proof/Machine/Step.lean ====
section
/-! DEFINITION. One step of a run: the next host event, whole (70_reset_and_hazards.md R238, R240; 20_memory.md R66). -/

namespace Sys2Proof.Machine

/-- PALBLK never steps on its own (00_scope.md R14): with no host event to come nothing changes (log entry 3); else the
oldest one is taken and performed. -/
def step (s : State) : Host.Outcome State Fault Refusal :=
  match s.pending with
  | [] => .next s
  | e :: rest => hostEvent e { s with pending := rest }

/-- s with a host write of the command word to CMD as the very next event. PALBLK fetches nothing (10_state.md R24): a
command is the value written to CMD (20_memory.md R74), so this stands for the host issuing it. Log entry 2. -/
def State.withFetchWord (s : State) (nbits w : Nat) : State :=
  { s with pending := .write 4 0x04#8 (tableWord nbits w) :: s.pending }

end Sys2Proof.Machine
end

