-- ==== Sys2Proof/Machine/HostProgram.lean ====
section
/-! DEFINITION. The spec's notation for host programs and its expansion to port accesses (30_encoding.md R86, R87). -/

namespace Sys2Proof.Machine

/-- The offset a register operand names (R86). -/
def nameOffset : RegName → Offset
  | .reg r => regOffset r
  | .offset off => off

/-- The port transaction of a line (R86). -/
def lineEvent : HostLine → HostEvent
  | .wr r imm => .write 4 (nameOffset r) imm
  | .rd r => .read 4 (nameOffset r)
  | .cmd i => .write 4 0x04#8 (encode i)

/-- The expansion of a pseudo-instruction (R87). -/
def expandPseudo : Pseudo → List HostLine
  | .insert c => [.wr (.reg .arg0) c, .cmd .pbInsert]
  | .lookup c => [.wr (.reg .arg0) c, .cmd .pbLookup, .rd (.reg .res0)]
  | .readpal i => [.wr (.reg .arg0) i, .cmd .pbRead, .rd (.reg .res0)]
  | .cmp a b => [.wr (.reg .arg0) a, .wr (.reg .arg1) b, .cmd .cccCmp, .rd (.reg .res0)]
  | .iwc n => [.wr (.reg .arg0) n, .cmd .iwcCalc, .rd (.reg .res0)]
  | .cfgpack n w => [.wr (.reg .arg0) n, .wr (.reg .arg1) w, .cmd .bpCfgPack]
  | .cfgunpack n w lim => [.wr (.reg .arg0) n, .wr (.reg .arg1) w, .wr (.reg .arg2) lim, .cmd .bpCfgUnpack]
  | .push v => [.wr (.reg .arg0) v, .cmd .bpPushValue]
  | .popb => [.cmd .bpPopByte, .rd (.reg .res0)]
  | .pushb b => [.wr (.reg .arg0) b, .cmd .bpPushByte]
  | .popv => [.cmd .bpPopValue, .rd (.reg .res0)]
  | .check => [.rd (.reg .status)]

/-- The host's test of `check`: STATUS[23:16] = 0 (R87). -/
def checkPasses (status : Word) : Bool := decide (status.extractLsb' 16 8 = 0#8)

end Sys2Proof.Machine
end

