-- ==== Sys2Proof/Machine/Stream.lean ====
section
/-! DEFINITION. The function the gearbox implements, on whole streams (44_bit_packer.md R150). No command calls it: the
pack and unpack laws (R155, R159, R163) compare the gearbox with it. -/

namespace Sys2Proof.Machine

/-- The stream integer: the sum over i of v_i * 2^(i*w) (R150). -/
def streamInt (w : Nat) : List Nat → Nat
  | [] => 0
  | v :: vs => v + 2 ^ w * streamInt w vs

/-- pack(v, w): B = (n*w + 7) div 8 bytes, byte j being (T >> 8j) mod 256 (R150). -/
def packBytes (w : Nat) (vs : List Nat) : List Nat :=
  (List.range ((vs.length * w + 7) / 8)).map (fun j => streamInt w vs / 2 ^ (8 * j) % 256)

/-- unpack(u, w, n): value i is (U >> (i*w)) mod 2^w, and TruncatedData, here none, when 8*m < n*w (R150). -/
def unpackValues (w n : Nat) (us : List Nat) : Option (List Nat) :=
  if 8 * us.length < n * w then none
  else some ((List.range n).map (fun i => streamInt 8 us / 2 ^ (i * w) % 2 ^ w))

end Sys2Proof.Machine
end

