-- ==== Sys2Proof/Safety.lean ====
section
/-! DEFINITION. The terms claims use: the invariant of a run, what a refused command may change, what each command may
answer, and the host sequences of the spec's laws. -/

namespace Sys2Proof.Machine

/-- The palette part of the invariant, in a build whose palette memory holds cap entries (10_state.md R31 to R35). -/
structure PaletteInv (cap : Nat) (s : State) : Prop where
  /-- the memory is in its canonical form -/
  form : palWf s.pal = true
  /-- only the entries PAL[0] to PAL[cap-1] exist (R20) -/
  exist : ∀ c ∈ s.pal, c.1 < cap
  /-- R32 -/
  count : s.pcount.toNat ≤ cap
  /-- the valid entries strictly ascend (R33) -/
  ascending : (palEntries s).Pairwise (· < ·)
  /-- R31, R35: nothing in the palette before the first PB_CLEAR, no width before PB_SEAL, and after it the width of a
  palette that is not empty -/
  state : match s.pbState with
    | .idle => s.pcount = 0#25 ∧ s.iwidth = 0#5
    | .building => s.iwidth = 0#5
    | .sealed => 1 ≤ s.pcount.toNat ∧ s.iwidth.toNat = indexWidth s.pcount.toNat

/-- The gearbox part of the invariant (10_state.md R36 to R42; 44_bit_packer.md R155 for the bit balance). -/
structure GearInv (s : State) : Prop where
  /-- R37 -/
  width : s.w.toNat ≤ 32
  /-- R41 -/
  room : s.accBits.toNat ≤ 40
  /-- R41 -/
  clean : s.acc.toNat < 2 ^ s.accBits.toNat
  /-- R38 -/
  values : s.vcount.toNat ≤ s.n.toNat
  /-- R38 -/
  bytes : s.bcount.toNat ≤ s.bneed.toNat
  /-- R39 -/
  need : s.bneed.toNat = (s.n.toNat * s.w.toNat + 7) / 8
  /-- what the mode adds: an OFF gearbox is empty (R162); in PACK the bits pushed are the bits popped and the bits waiting,
  padded to whole bytes once flushed; in UNPACK the bits pushed are the bits read and the bits waiting -/
  mode : match s.bpMode with
    | .off => s.w = 0#6 ∧ s.n = 0#32 ∧ s.limit = 0#32 ∧ s.accBits = 0#6 ∧ s.ended = false ∧ s.flushed = false
    | .pack =>
      s.limit = 0#32 ∧ s.ended = false ∧ s.accBits.toNat ≤ 39 ∧
      (s.flushed = false → s.vcount.toNat * s.w.toNat = 8 * s.bcount.toNat + s.accBits.toNat) ∧
      (s.flushed = true →
        s.vcount = s.n ∧ 8 * s.bcount.toNat + s.accBits.toNat = 8 * s.bneed.toNat ∧ s.accBits.toNat ≤ 8)
    | .unpack => s.flushed = false ∧ 8 * s.bcount.toNat = s.vcount.toNat * s.w.toNat + s.accBits.toNat

/-- The report part of the invariant (10_state.md R25 to R27). -/
structure ReportInv (s : State) : Prop where
  /-- ERR is set exactly when a first error is recorded -/
  sticky : s.err = true ↔ s.firstErr ≠ .ok
  /-- hold codes never reach FIRSTERR -/
  noHold : codeClass s.firstErr ≠ .hold
  /-- the most recent command's error is in the sticky report -/
  recorded : codeClass s.lastCode = .error → s.err = true

/-- The run's part: the fault bit is set exactly when an access was answered by a bus error (60_exceptions.md R212). -/
structure RunInv (s : State) : Prop where
  fault : s.busFault = true ↔ Response.busError ∈ s.responses

/-- The invariant of a run. -/
structure MachineInv (s : State) : Prop where
  palette : PaletteInv Config.palCap s
  gear : GearInv s
  report : ReportInv s
  run : RunInv s

/-- A run in which the host kept to the port's rules: no access was refused (70_reset_and_hazards.md R240, R241). -/
def NoBusFault (s : State) : Prop := s.busFault = false

/-- The answer of a command that ends with the code c and has no other effect: LASTCODE takes the code; for a code of class
error ERR is set, and FIRSTERR takes the code where it was 0x00 (60_exceptions.md R203). -/
def ReportsOnly (c : StatusCode) (s : State) (r : Result) : Prop :=
  r = .next { s with
    lastCode := c
    err := s.err || decide (codeClass c = .error)
    firstErr := if codeClass c = .error ∧ s.firstErr = .ok then c else s.firstErr }

/-- The codes each command can end with beside OK (60_exceptions.md R200, column "raised by"). -/
def raisedBy : Instr → List StatusCode
  | .nop | .clrerr | .reset | .cccCmp | .pbClear | .bpStop => []
  | .pbInsert => [.eBadState, .ePaletteOverflow]
  | .pbSeal => [.eBadState, .eInvalidInput]
  | .pbLookup => [.eBadState, .eNotFound]
  | .pbRead => [.eBadState, .eIndexOutOfRange]
  | .iwcCalc => [.eInvalidPaletteSize]
  | .bpCfgPack | .bpCfgUnpack => [.eBadOperand]
  | .bpPushValue => [.eBadState, .eBadOperand, .eCount, .eOverrun]
  | .bpPopByte => [.eBadState, .eUnderrun]
  | .bpFlush => [.eBadState, .eCount, .eOverrun]
  | .bpEnd => [.eBadState]
  | .bpPushByte => [.eBadState, .eBadOperand, .eCount, .eOverrun]
  | .bpPopValue => [.eBadState, .eCount, .eTruncatedData, .eUnderrun, .eIndexOutOfRange]

/-- The elements of 10_state.md R45 at their reset values, PAL apart, which R45 leaves unspecified. -/
structure AtResetValues (t : State) : Prop where
  args : t.arg0 = 0#32 ∧ t.arg1 = 0#32 ∧ t.arg2 = 0#32
  results : t.res0 = 0#32 ∧ t.res1 = 0#32
  report : t.err = false ∧ codeByte t.lastCode = 0#8 ∧ codeByte t.firstErr = 0#8
  palette : t.pbState = .idle ∧ t.pcount = 0#25 ∧ t.iwidth = 0#5
  stream : t.bpMode = .off ∧ t.w = 0#6 ∧ t.n = 0#32 ∧ t.vcount = 0#32 ∧ t.bcount = 0#64 ∧ t.bneed = 0#64 ∧ t.limit = 0#32
  gear : t.acc = 0#40 ∧ t.accBits = 0#6 ∧ t.ended = false ∧ t.flushed = false

/-- The palette builder's elements are the same in s and t. -/
def SamePalette (s t : State) : Prop :=
  t.pbState = s.pbState ∧ t.pcount = s.pcount ∧ t.iwidth = s.iwidth ∧ ∀ i, palGet t.pal i = palGet s.pal i

/-- The gearbox's elements are the same in s and t. -/
def SameGearbox (s t : State) : Prop :=
  t.bpMode = s.bpMode ∧ t.w = s.w ∧ t.n = s.n ∧ t.vcount = s.vcount ∧ t.bcount = s.bcount ∧ t.bneed = s.bneed ∧
  t.limit = s.limit ∧ t.acc = s.acc ∧ t.accBits = s.accBits ∧ t.ended = s.ended ∧ t.flushed = s.flushed

/-- The state after a command that succeeded; none where it answered anything else. -/
def okState : Result → Option State
  | .next t => if t.lastCode = .ok then some t else none
  | .fault _ => none
  | .refused _ => none

/-- The command ended with a code of class hold (60_exceptions.md R200). -/
def holds : Result → Bool
  | .next t => decide (codeClass t.lastCode = .hold)
  | .fault _ => false
  | .refused _ => false

/-- The host issues a cure while the held command would hold again, at most fuel times, and so before each retry
(70_reset_and_hazards.md R241, R242). The cure is told how many more may follow it, which lets it take a new operand each
time. -/
def cureWhile (held : State → Result) (cure : Nat → State → Result) : Nat → State → State
  | 0, s => s
  | fuel + 1, s =>
    if holds (held s) then
      match cure fuel s with
      | .next t => cureWhile held cure fuel t
      | .fault _ => s
      | .refused _ => s
    else s

/-- The host inserts the colours cs one after another, as `insert c` does (30_encoding.md R87); none when one of the
insertions fails (42_palette_builder.md R123). -/
def insertAll : List Word → State → Option State
  | [], s => some s
  | c :: cs, s => (okState (exec .pbInsert { s with arg0 := c })).bind (insertAll cs)

/-- The host pops bytes while STATUS.BP_BYTE_AVAIL = 1, at most fuel of them (44_bit_packer.md R155); none when a pop fails. -/
def popBytes : Nat → State → Option (List Byte × State)
  | 0, s => some ([], s)
  | fuel + 1, s =>
    if bpByteAvail s then
      (okState (exec .bpPopByte s)).bind fun t =>
        (popBytes fuel t).map fun q => (t.res0.setWidth 8 :: q.1, q.2)
    else some ([], s)

/-- The host pushes the values vs, popping after each push while a byte is available (44_bit_packer.md R155). -/
def pushValues : List Word → State → Option (List Byte × State)
  | [], s => some ([], s)
  | v :: vs, s =>
    (okState (exec .bpPushValue { s with arg0 := v })).bind fun t =>
      (popBytes 5 t).bind fun q =>
        (pushValues vs q.2).map fun q' => (q.1 ++ q'.1, q'.2)

/-- The host's whole packing sequence: BP_CFG_PACK(N, w), the pushes and pops, BP_FLUSH, the last pops (44_bit_packer.md R155). -/
def packRun (w : Word) (vs : List Word) (s : State) : Option (List Byte × State) :=
  (okState (exec .bpCfgPack { s with arg0 := BitVec.ofNat 32 vs.length, arg1 := w })).bind fun t =>
    (pushValues vs t).bind fun q =>
      (okState (exec .bpFlush q.2)).bind fun u =>
        (popBytes 5 u).map fun q' => (q.1 ++ q'.1, q'.2)

/-- The host reads one value: BP_POP_VALUE, and on E_UNDERRUN BP_PUSH_BYTE of the next byte and a retry, at most fuel tries
(70_reset_and_hazards.md R235, 44_bit_packer.md R163). -/
def popValue : Nat → List Byte → State → Option (Word × List Byte × State)
  | 0, _, _ => none
  | fuel + 1, us, s =>
    match exec .bpPopValue s with
    | .next t =>
      if t.lastCode = .ok then some (t.res0, us, t)
      else if t.lastCode = .eUnderrun then
        match us with
        | [] => none
        | u :: us => (okState (exec .bpPushByte { t with arg0 := u.setWidth 32 })).bind (popValue fuel us)
      else none
    | .fault _ => none
    | .refused _ => none

/-- The host reads n values (70_reset_and_hazards.md R235). -/
def popValues : Nat → List Byte → State → Option (List Word × State)
  | 0, _, s => some ([], s)
  | n + 1, us, s =>
    (popValue 6 us s).bind fun q =>
      (popValues n q.2.1 q.2.2).map fun q' => (q.1 :: q'.1, q'.2)

/-- The host's whole unpacking sequence: BP_CFG_UNPACK(N, w, limit), then the values (44_bit_packer.md R163). -/
def unpackRun (n w limit : Word) (us : List Byte) (s : State) : Option (List Word × State) :=
  (okState (exec .bpCfgUnpack { s with arg0 := n, arg1 := w, arg2 := limit })).bind fun t =>
    popValues n.toNat us t

end Sys2Proof.Machine
end

