-- ==== Sys2Proof/Certificates/Slice0/Obligations.lean ====
section
/-! DEFINITION. The statements for the provers, each from the numbered rules its docstring names. -/

open Sys2Proof Sys2Proof.Machine

/-! Encoding (30_encoding.md) -/

/-- R80, R82, R83: a word decodes to a command exactly when it is that command's word. -/
def Obligations.DecodeIsInverseOfEncode : Prop :=
  ∀ (cw : Word) (i : Instr), decode cw = .ok i ↔ cw = encode i

/-- R82: the opcode map, word by word, as the encoding line of each command's rule gives it. -/
def Obligations.CommandWordsDecode : Prop :=
  decode 0x00000000#32 = .ok .nop ∧ decode 0x00000001#32 = .ok .clrerr ∧ decode 0x00000002#32 = .ok .reset ∧
  decode 0x00000010#32 = .ok .cccCmp ∧
  decode 0x00000020#32 = .ok .pbClear ∧ decode 0x00000021#32 = .ok .pbInsert ∧ decode 0x00000022#32 = .ok .pbSeal ∧
  decode 0x00000023#32 = .ok .pbLookup ∧ decode 0x00000024#32 = .ok .pbRead ∧
  decode 0x00000030#32 = .ok .iwcCalc ∧
  decode 0x00000040#32 = .ok .bpCfgPack ∧ decode 0x00000041#32 = .ok .bpPushValue ∧
  decode 0x00000042#32 = .ok .bpPopByte ∧ decode 0x00000043#32 = .ok .bpFlush ∧
  decode 0x00000048#32 = .ok .bpCfgUnpack ∧ decode 0x00000049#32 = .ok .bpPushByte ∧
  decode 0x0000004A#32 = .ok .bpPopValue ∧ decode 0x0000004B#32 = .ok .bpEnd ∧ decode 0x0000004F#32 = .ok .bpStop

/-- R83: the illegal words, and what one does: E_ILLEGAL_CMD and nothing else. -/
def Obligations.IllegalCommandWords : Prop :=
  ∀ (cw : Word) (s : State),
    ((∃ e, decode cw = .error e) ↔
      cw.toNat / 256 ≠ 0 ∨
      (0x03 ≤ cw.toNat % 256 ∧ cw.toNat % 256 ≤ 0x0F) ∨ (0x11 ≤ cw.toNat % 256 ∧ cw.toNat % 256 ≤ 0x1F) ∨
      (0x25 ≤ cw.toNat % 256 ∧ cw.toNat % 256 ≤ 0x2F) ∨ (0x31 ≤ cw.toNat % 256 ∧ cw.toNat % 256 ≤ 0x3F) ∨
      (0x44 ≤ cw.toNat % 256 ∧ cw.toNat % 256 ≤ 0x47) ∨ (0x4C ≤ cw.toNat % 256 ∧ cw.toNat % 256 ≤ 0x4E) ∨
      0x50 ≤ cw.toNat % 256) ∧
    ((∃ e, decode cw = .error e) → ReportsOnly .eIllegalCmd s (command cw s))

/-! Runs and the port (20_memory.md, 10_state.md, 70_reset_and_hazards.md). The events to come and the answers given, which
the equations below also show, are the model's own record of the run (log entries 2 and 4). -/

/-- R14, R66, R81: with no host event to come nothing changes (the model's idle step, log entry 3); a word write to CMD runs
the decoded command on the state it finds, with the write taken from the events to come and answered; an illegal word
raises E_ILLEGAL_CMD there. -/
def Obligations.StepRunsDecodedCommand : Prop :=
  ∀ s : State,
    (s.pending = [] → step s = .next s) ∧
    (∀ cw rest i, s.pending = .write 4 0x04#8 cw :: rest → decode cw = .ok i →
      step s = exec i { s with pending := rest, responses := s.responses ++ [.done] }) ∧
    (∀ cw rest e, s.pending = .write 4 0x04#8 cw :: rest → decode cw = .error e →
      step s = raise .eIllegalCmd { s with pending := rest, responses := s.responses ++ [.done] })

/-- R21, R60, R66: a word read of any offset is answered by the content of that offset in the state it finds, and changes
nothing; and the content of each named offset. STATUS is stated by StatusWordFields, the reserved offsets by
ReservedAndReadOnlyOffsets. -/
def Obligations.RegisterMapContents : Prop :=
  ∀ s : State,
    (∀ (off : Offset) (rest : List HostEvent), off.toNat % 4 = 0 → s.pending = .read 4 off :: rest →
      step s = .next { s with pending := rest, responses := s.responses ++ [.data (portRead off s)] }) ∧
    portRead 0x00#8 s = 0x50414C31#32 ∧ portRead 0x04#8 s = 0#32 ∧
    portRead 0x08#8 s = s.arg0 ∧ portRead 0x0C#8 s = s.arg1 ∧ portRead 0x10#8 s = s.arg2 ∧
    portRead 0x14#8 s = s.res0 ∧ portRead 0x18#8 s = s.res1 ∧ portRead 0x1C#8 s = statusWord s ∧
    portRead 0x20#8 s = BitVec.ofNat 32 s.pcount.toNat ∧ portRead 0x24#8 s = BitVec.ofNat 32 s.iwidth.toNat ∧
    portRead 0x28#8 s = BitVec.ofNat 32 Config.palCap ∧ (portRead 0x28#8 s).toNat = Config.palCap ∧
    portRead 0x2C#8 s = BitVec.ofNat 32 s.w.toNat ∧ portRead 0x30#8 s = s.n ∧ portRead 0x34#8 s = s.vcount ∧
    portRead 0x38#8 s = BitVec.ofNat 32 (s.bcount.toNat % 2 ^ 32) ∧
    portRead 0x3C#8 s = BitVec.ofNat 32 (s.bcount.toNat / 2 ^ 32) ∧
    portRead 0x40#8 s = BitVec.ofNat 32 (s.bneed.toNat % 2 ^ 32) ∧
    portRead 0x44#8 s = BitVec.ofNat 32 (s.bneed.toNat / 2 ^ 32) ∧
    portRead 0x48#8 s = s.limit ∧
    portRead 0x4C#8 s = BitVec.ofNat 32 (s.acc.toNat % 2 ^ 32) ∧
    portRead 0x50#8 s = BitVec.ofNat 32 (s.acc.toNat / 2 ^ 32)

/-- R43: a read, of whatever size and offset, changes nothing but what the host has been answered and the fault bit; a
write to another offset than CMD changes, beside these, only ARG0, ARG1 and ARG2; a word write to CMD changes what its
command changes. -/
def Obligations.HostAccessesTouchOnlyTheirRegister : Prop :=
  ∀ s t : State, step s = .next t →
    (∀ size off rest, s.pending = .read size off :: rest →
      t = { s with pending := rest, responses := t.responses, busFault := t.busFault }) ∧
    (∀ size off v rest, s.pending = .write size off v :: rest → off ≠ 0x04#8 →
      t = { s with
        pending := rest, responses := t.responses, busFault := t.busFault
        arg0 := t.arg0, arg1 := t.arg1, arg2 := t.arg2 }) ∧
    (∀ v rest, s.pending = .write 4 0x04#8 v :: rest →
      command v { s with pending := rest, responses := s.responses ++ [.done] } = .next t)

/-- R22: a word write to ARG0, ARG1 or ARG2 stores every bit there and nowhere else, a read returns it, and nothing
else but RESET and hardware reset changes them. -/
def Obligations.ArgRegistersStoreEveryBit : Prop :=
  (∀ (s : State) (v : Word) (rest : List HostEvent),
    (s.pending = .write 4 0x08#8 v :: rest →
      step s = .next { s with arg0 := v, pending := rest, responses := s.responses ++ [.done] }) ∧
    (s.pending = .write 4 0x0C#8 v :: rest →
      step s = .next { s with arg1 := v, pending := rest, responses := s.responses ++ [.done] }) ∧
    (s.pending = .write 4 0x10#8 v :: rest →
      step s = .next { s with arg2 := v, pending := rest, responses := s.responses ++ [.done] }) ∧
    (s.pending = .read 4 0x08#8 :: rest →
      step s = .next { s with pending := rest, responses := s.responses ++ [.data s.arg0] }) ∧
    (s.pending = .read 4 0x0C#8 :: rest →
      step s = .next { s with pending := rest, responses := s.responses ++ [.data s.arg1] }) ∧
    (s.pending = .read 4 0x10#8 :: rest →
      step s = .next { s with pending := rest, responses := s.responses ++ [.data s.arg2] })) ∧
  (∀ s t : State, step s = .next t →
    (∀ off v rest, off = 0x08#8 ∨ off = 0x0C#8 ∨ off = 0x10#8 → s.pending ≠ .write 4 off v :: rest) →
    (∀ cw rest, s.pending = .write 4 0x04#8 cw :: rest → decode cw ≠ .ok .reset) →
    (∀ rest, s.pending ≠ .hwReset :: rest) →
    t.arg0 = s.arg0 ∧ t.arg1 = s.arg1 ∧ t.arg2 = s.arg2)

/-- R44: a word write to a read-only register or a reserved offset is accepted and has no effect; a word read of a reserved
offset or of CMD returns 0. -/
def Obligations.ReservedAndReadOnlyOffsets : Prop :=
  ∀ (s : State) (off : Offset) (v : Word) (rest : List HostEvent), off.toNat % 4 = 0 →
    (off ≠ 0x04#8 → off ≠ 0x08#8 → off ≠ 0x0C#8 → off ≠ 0x10#8 → s.pending = .write 4 off v :: rest →
      step s = .next { s with pending := rest, responses := s.responses ++ [.done] }) ∧
    (0x54 ≤ off.toNat ∨ off = 0x04#8 → s.pending = .read 4 off :: rest →
      step s = .next { s with pending := rest, responses := s.responses ++ [.data 0#32] })

/-- R62, R63: an access at an offset that is no multiple of 4, or not 4 bytes wide, is answered by a bus error and changes
nothing else; the model records it in the fault bit. -/
def Obligations.RefusedAccessesOnlyRecordABusFault : Prop :=
  ∀ (s : State) (size : Nat) (off : Offset) (v : Word) (rest : List HostEvent), size ≠ 4 ∨ off.toNat % 4 ≠ 0 →
    s.pending = .read size off :: rest ∨ s.pending = .write size off v :: rest →
    step s = .next { s with pending := rest, responses := s.responses ++ [.busError], busFault := true }

/-- R212: the fault bit is never cleared, and only a refused access sets it. Neither RESET nor the reset input clears it
(the model's reading, log entry 5). -/
def Obligations.BusFaultBitIsNeverCleared : Prop :=
  ∀ s t : State, step s = .next t →
    (t.busFault = true ↔ s.busFault = true ∨ ∃ e rest, s.pending = e :: rest ∧ e.wellFormed = false)

/-- R45, R102: RESET and hardware reset have one effect: every element but PAL takes its reset value, STATUS then reads 0,
and ID and CAP are constants. -/
def Obligations.ResetValues : Prop :=
  decode 0x00000002#32 = .ok .reset ∧
  ∀ s : State, ∃ t, exec .reset s = .next t ∧ step { s with pending := .hwReset :: s.pending } = .next t ∧
    AtResetValues t ∧ statusWord t = 0#32 ∧ portRead 0x00#8 t = portRead 0x00#8 s ∧ portRead 0x28#8 t = portRead 0x28#8 s

/-- R28, R29: the fields of STATUS and their values. -/
def Obligations.StatusWordFields : Prop :=
  statusWord State.reset = 0#32 ∧
  ∀ s : State, portRead 0x1C#8 s = statusWord s ∧ ∃ done byteAvail ended flushed valueAvail : Bool,
    (done = true ↔
      (s.bpMode = .pack ∧ s.vcount = s.n ∧ s.flushed = true ∧ s.accBits.toNat = 0) ∨
      (s.bpMode = .unpack ∧ s.vcount = s.n)) ∧
    (byteAvail = true ↔ s.bpMode = .pack ∧ 8 ≤ s.accBits.toNat) ∧
    (ended = true ↔ s.bpMode = .unpack ∧ s.ended = true) ∧
    (flushed = true ↔ s.bpMode = .pack ∧ s.flushed = true) ∧
    (valueAvail = true ↔ s.bpMode = .unpack ∧ s.vcount.toNat < s.n.toNat ∧ s.w.toNat ≤ s.accBits.toNat) ∧
    (statusWord s).toNat =
      s.err.toNat + 2 * done.toNat + 4 * byteAvail.toNat + 8 * ended.toNat + 16 * flushed.toNat +
      32 * valueAvail.toNat +
      2 ^ 6 * (match s.pbState with | .idle => 0 | .building => 1 | .sealed => 2) +
      2 ^ 8 * (match s.bpMode with | .off => 0 | .pack => 1 | .unpack => 2) +
      2 ^ 10 * s.accBits.toNat + 2 ^ 16 * (codeByte s.lastCode).toNat + 2 ^ 24 * (codeByte s.firstErr).toNat

/-- R21, column "reset": what the host reads right after reset. -/
def Obligations.ResetStateReads : Prop :=
  ∀ r : PortReg, portRead (regOffset r) State.reset =
    match r with
    | .ident => 0x50414C31#32
    | .cap => BitVec.ofNat 32 Config.palCap
    | _ => 0#32

/-- R86: the port transactions of the host-program lines `cmd`, `wr` and `rd`, with a register's name or a numeric offset. -/
def Obligations.HostProgramLines : Prop :=
  (∀ i, lineEvent (.cmd i) = .write 4 0x04#8 ((opcode i).setWidth 32)) ∧
  (∀ r v, lineEvent (.wr (.reg r) v) = .write 4 (regOffset r) v ∧ regAt (regOffset r) = some r) ∧
  (∀ off v, lineEvent (.wr (.offset off) v) = .write 4 off v) ∧
  (∀ r, lineEvent (.rd (.reg r)) = .read 4 (regOffset r)) ∧
  (∀ off, lineEvent (.rd (.offset off)) = .read 4 off)

/-! Status codes and the error report (60_exceptions.md, 10_state.md) -/

/-- R200, R238: every command ends with a next state and one of the codes the table lists for it; the codes' numbers and
classes. -/
def Obligations.CommandsEndWithAListedCode : Prop :=
  (∀ (i : Instr) (s : State), ∃ t, exec i s = .next t ∧ t.lastCode ∈ .ok :: raisedBy i) ∧
  [StatusCode.ok, .eInvalidInput, .eInvalidPaletteSize, .eTruncatedData, .eIndexOutOfRange, .ePaletteOverflow,
    .eIllegalCmd, .eBadState, .eBadOperand, .eNotFound, .eCount, .eOverrun, .eUnderrun].map
      (fun c => (codeByte c).toNat) = List.range 13 ∧
  (∀ c, codeClass c = .success ↔ (codeByte c).toNat = 0) ∧
  (∀ c, codeClass c = .hold ↔ (codeByte c).toNat = 0x0B ∨ (codeByte c).toNat = 0x0C)

/-- R203: a command that does not succeed changes nothing but LASTCODE, and for a code of class error ERR and FIRSTERR. -/
def Obligations.FailedCommandsAreAllOrNothing : Prop :=
  ∀ (cw : Word) (s t : State), command cw s = .next t → t.lastCode ≠ .ok →
    (codeClass t.lastCode = .error →
      t = { s with
        lastCode := t.lastCode
        err := true
        firstErr := if codeByte s.firstErr = 0#8 then t.lastCode else s.firstErr }) ∧
    (codeClass t.lastCode ≠ .error → t = { s with lastCode := t.lastCode })

/-- R25, R27: ERR and FIRSTERR over one host event. A command of class error sets ERR, and FIRSTERR where it is 0x00; only
CLRERR, RESET and hardware reset clear them; everything that is no CMD write and no hardware reset leaves them, and
LASTCODE, unchanged. -/
def Obligations.StickyErrorReport : Prop :=
  ∀ s t : State, step s = .next t →
    (∀ cw rest, s.pending = .write 4 0x04#8 cw :: rest →
      (decode cw = .ok .clrerr ∨ decode cw = .ok .reset → t.err = false ∧ t.firstErr = .ok) ∧
      (decode cw ≠ .ok .clrerr → decode cw ≠ .ok .reset →
        (codeClass t.lastCode = .error → t.err = true ∧ t.firstErr = if s.firstErr = .ok then t.lastCode else s.firstErr) ∧
        (codeClass t.lastCode ≠ .error → t.err = s.err ∧ t.firstErr = s.firstErr))) ∧
    (∀ rest, s.pending = .hwReset :: rest → t.err = false ∧ t.firstErr = .ok) ∧
    ((∀ cw rest, s.pending ≠ .write 4 0x04#8 cw :: rest) → (∀ rest, s.pending ≠ .hwReset :: rest) →
      t.err = s.err ∧ t.firstErr = s.firstErr ∧ t.lastCode = s.lastCode)

/-- R23: only a command that succeeded changes RES0 or RES1, and only one whose rule names it. -/
def Obligations.ResultRegisterWriters : Prop :=
  ∀ (i : Instr) (s t : State), exec i s = .next t →
    (t.res0 ≠ s.res0 → t.lastCode = .ok ∧
      i ∈ [Instr.reset, .cccCmp, .pbInsert, .pbSeal, .pbLookup, .pbRead, .iwcCalc, .bpCfgPack, .bpPopByte, .bpCfgUnpack,
        .bpPopValue]) ∧
    (t.res1 ≠ s.res1 → t.lastCode = .ok ∧
      i ∈ [Instr.reset, .cccCmp, .pbInsert, .pbSeal, .bpCfgPack, .bpCfgUnpack])

/-- R112, R121, R127, R141, R162: the units keep out of each other's state. Only the palette builder's writing commands and
RESET touch its elements, only gearbox commands and RESET touch the gearbox, and no command touches what belongs to the
run. -/
def Obligations.UnitsDoNotDisturbEachOther : Prop :=
  ∀ (i : Instr) (s t : State), exec i s = .next t →
    (i ∉ [Instr.reset, .pbClear, .pbInsert, .pbSeal] → SamePalette s t) ∧
    (i ∉ [Instr.reset, .bpCfgPack, .bpPushValue, .bpPopByte, .bpFlush, .bpCfgUnpack, .bpPushByte, .bpPopValue, .bpEnd,
      .bpStop] → SameGearbox s t) ∧
    t.pending = s.pending ∧ t.responses = s.responses ∧ t.busFault = s.busFault

/-- R31: the palette builder's transitions, and the state in which each of its commands is accepted. -/
def Obligations.PaletteStateTransitions : Prop :=
  ∀ (i : Instr) (s t : State), exec i s = .next t →
    (i = .pbClear → t.lastCode = .ok ∧ t.pbState = .building) ∧
    (i = .pbInsert → t.lastCode = .ok → s.pbState = .building ∧ t.pbState = .building) ∧
    (i = .pbSeal → t.lastCode = .ok → s.pbState = .building ∧ t.pbState = .sealed) ∧
    (i = .pbLookup ∨ i = .pbRead → t.lastCode = .ok → s.pbState = .sealed) ∧
    (i = .pbInsert ∨ i = .pbSeal → s.pbState = .building → t.lastCode ≠ .eBadState) ∧
    (i = .pbLookup ∨ i = .pbRead → s.pbState = .sealed → t.lastCode ≠ .eBadState) ∧
    (i = .reset → t.pbState = .idle) ∧
    (i ∉ [Instr.reset, .pbClear, .pbSeal] ∨ t.lastCode ≠ .ok → t.pbState = s.pbState)

/-- R127: which palette command raises E_BAD_STATE in which state; commands of other units answer the same code in every
PB_STATE and do not change it, RESET apart. -/
def Obligations.PaletteCommandAcceptance : Prop :=
  ∀ s t : State,
    (exec .pbClear s = .next t → t.lastCode ≠ .eBadState) ∧
    (exec .pbInsert s = .next t → (t.lastCode = .eBadState ↔ s.pbState ≠ .building)) ∧
    (exec .pbSeal s = .next t → (t.lastCode = .eBadState ↔ s.pbState ≠ .building)) ∧
    (exec .pbLookup s = .next t → (t.lastCode = .eBadState ↔ s.pbState ≠ .sealed)) ∧
    (exec .pbRead s = .next t → (t.lastCode = .eBadState ↔ s.pbState ≠ .sealed)) ∧
    (∀ i, i ∉ [Instr.reset, .pbClear, .pbInsert, .pbSeal, .pbLookup, .pbRead] → exec i s = .next t →
      t.pbState = s.pbState ∧ ∀ q, exec i { s with pbState := q } = .next { t with pbState := q })

/-- R36: the gearbox's mode transitions. -/
def Obligations.GearboxModeTransitions : Prop :=
  ∀ (i : Instr) (s t : State), exec i s = .next t →
    (i = .bpCfgPack → t.lastCode = .ok → t.bpMode = .pack) ∧
    (i = .bpCfgUnpack → t.lastCode = .ok → t.bpMode = .unpack) ∧
    (i = .bpStop ∨ i = .reset → t.lastCode = .ok ∧ t.bpMode = .off) ∧
    (i ∉ [Instr.bpCfgPack, .bpCfgUnpack, .bpStop, .reset] ∨ t.lastCode ≠ .ok → t.bpMode = s.bpMode)

/-- R38: VCOUNT and BCOUNT over one command. Each increases by 1 with its successful push or pop, is 0 after a successful
configuration, BP_STOP or RESET, and stays otherwise; both keep their bounds. -/
def Obligations.StreamCountersMoveByOne : Prop :=
  ∀ (i : Instr) (s t : State), GearInv s → exec i s = .next t →
    (i ∈ [Instr.bpPushValue, .bpPopValue] → t.lastCode = .ok →
      t.vcount.toNat = s.vcount.toNat + 1 ∧ t.bcount = s.bcount) ∧
    (i ∈ [Instr.bpPopByte, .bpPushByte] → t.lastCode = .ok →
      t.bcount.toNat = s.bcount.toNat + 1 ∧ t.vcount = s.vcount) ∧
    (i ∈ [Instr.bpCfgPack, .bpCfgUnpack, .bpStop, .reset] → t.lastCode = .ok →
      t.vcount.toNat = 0 ∧ t.bcount.toNat = 0) ∧
    (i ∉ [Instr.bpPushValue, .bpPopValue, .bpPopByte, .bpPushByte, .bpCfgPack, .bpCfgUnpack, .bpStop, .reset] ∨
      t.lastCode ≠ .ok → t.vcount = s.vcount ∧ t.bcount = s.bcount) ∧
    t.vcount.toNat ≤ t.n.toNat ∧ t.bcount.toNat ≤ t.bneed.toNat

/-- R242: a command repeated after a hold, with no other command in between, gets the same hold again and changes nothing. -/
def Obligations.HoldRepeats : Prop :=
  ∀ (i : Instr) (s t : State), exec i s = .next t → codeClass t.lastCode = .hold → exec i t = .next t

/-- R242: what cures each hold of the gearbox, what one cure does to the bits waiting, and how many cures end the hold.
After at most 4 pops of a byte the held push or flush succeeds; after at most 8 pops of a value the held byte does, but where
a pop failed with E_INDEX_OUT_OF_RANGE; after at most 4 bytes the held value no longer holds; after at most 8 values, which
must have bits, or the flush of waiting bits, a byte is ready. -/
def Obligations.HoldsHaveCures : Prop :=
  ∀ s t : State, GearInv s →
    (∀ i, i = .bpPushValue ∨ i = .bpFlush → exec i s = .next t → t.lastCode = .eOverrun →
      (∃ u, exec .bpPopByte t = .next u ∧ u.lastCode = .ok ∧ u.accBits.toNat + 8 = t.accBits.toNat) ∧
      ∃ v, exec i (cureWhile (exec i) (fun _ => exec .bpPopByte) 4 t) = .next v ∧ v.lastCode = .ok) ∧
    (exec .bpPushByte s = .next t → t.lastCode = .eOverrun →
      t.vcount.toNat < t.n.toNat ∧ 1 ≤ t.w.toNat ∧
      (∃ u, exec .bpPopValue t = .next u ∧
        (u.lastCode = .ok ∧ u.accBits.toNat + t.w.toNat = t.accBits.toNat ∨ u.lastCode = .eIndexOutOfRange)) ∧
      ((cureWhile (exec .bpPushByte) (fun _ => exec .bpPopValue) 8 t).lastCode = .eIndexOutOfRange ∨
        ∃ v, exec .bpPushByte (cureWhile (exec .bpPushByte) (fun _ => exec .bpPopValue) 8 t) = .next v ∧
          v.lastCode = .ok)) ∧
    (exec .bpPopValue s = .next t → t.lastCode = .eUnderrun →
      (∀ b : Word, b.toNat < 256 → ∃ u, exec .bpPushByte { t with arg0 := b } = .next u ∧ u.lastCode = .ok ∧
        u.accBits.toNat = t.accBits.toNat + 8) ∧
      (∀ bs : Nat → Word, (∀ k, (bs k).toNat < 256) →
        ∃ v, exec .bpPopValue
            (cureWhile (exec .bpPopValue) (fun k u => exec .bpPushByte { u with arg0 := bs k }) 4 t) = .next v ∧
          (v.lastCode = .ok ∨ v.lastCode = .eIndexOutOfRange)) ∧
      ∃ u v, exec .bpEnd t = .next u ∧ exec .bpPopValue u = .next v ∧ v.lastCode = .eTruncatedData) ∧
    (exec .bpPopByte s = .next t → t.lastCode = .eUnderrun →
      (t.vcount ≠ t.n → ∀ v : Word, v.toNat < 2 ^ t.w.toNat →
        ∃ u, exec .bpPushValue { t with arg0 := v } = .next u ∧ u.lastCode = .ok ∧
          u.accBits.toNat = t.accBits.toNat + t.w.toNat) ∧
      (1 ≤ t.w.toNat → t.vcount.toNat + 8 ≤ t.n.toNat → ∀ vs : Nat → Word, (∀ k, (vs k).toNat < 2 ^ t.w.toNat) →
        ∃ v, exec .bpPopByte
            (cureWhile (exec .bpPopByte) (fun k u => exec .bpPushValue { u with arg0 := vs k }) 8 t) = .next v ∧
          v.lastCode = .ok) ∧
      (t.vcount = t.n → ∃ u, exec .bpFlush t = .next u ∧ u.lastCode = .ok ∧
        (0 < t.accBits.toNat → ∃ v, exec .bpPopByte u = .next v ∧ v.lastCode = .ok)))

/-! Control commands (40_control.md) -/

/-- R100, R101: NOP and CLRERR. -/
def Obligations.NopAndClearErrors : Prop :=
  decode 0x00000000#32 = .ok .nop ∧ decode 0x00000001#32 = .ok .clrerr ∧
  ∀ s : State,
    exec .nop s = .next { s with lastCode := .ok } ∧
    exec .clrerr s = .next { s with err := false, firstErr := .ok, lastCode := .ok }

/-! Colours and the comparator (00_scope.md R12, 41_comparator.md) -/

/-- R12: the channels of a colour word, and the colour word of a colour. -/
def Obligations.ColourWordChannels : Prop :=
  (∀ c : Word, (colourOf c).r.toNat = c.toNat / 2 ^ 16 % 256 ∧ (colourOf c).g.toNat = c.toNat / 2 ^ 8 % 256 ∧
    (colourOf c).b.toNat = c.toNat % 256) ∧
  (∀ c : Colour, colourOf (colourWord c) = c ∧ (colourWord c).toNat < 2 ^ 24)

/-- R110: the canonical key, and its identity with bits 23:0 of a colour operand. -/
def Obligations.CanonicalKey : Prop :=
  (∀ c : Colour, (colourKey c).toNat = c.r.toNat * 65536 + c.g.toNat * 256 + c.b.toNat) ∧
  (∀ c : Word, keyOperand c = colourKey (colourOf c) ∧ (colourKey (colourOf c)).toNat = c.toNat % 2 ^ 24)

/-- R111: the key is a bijection, and its order is a strict total order, the lexicographic one with r most significant. -/
def Obligations.KeyOrder : Prop :=
  (∀ k : Key, ∃ c, colourKey c = k) ∧
  (∀ a b : Colour, colourKey a = colourKey b ↔ a = b) ∧
  (∀ a b : Colour, colourKey a < colourKey b ↔
    a.r < b.r ∨ (a.r = b.r ∧ (a.g < b.g ∨ (a.g = b.g ∧ a.b < b.b)))) ∧
  (∀ a b : Colour, colourKey a < colourKey b ∨ a = b ∨ colourKey b < colourKey a) ∧
  (∀ a b c : Colour, colourKey a < colourKey b → colourKey b < colourKey c → colourKey a < colourKey c) ∧
  (∀ a : Colour, ¬ colourKey a < colourKey a)

/-- R85: colour words that differ only in bits 31:24 are the same operand to every colour command. -/
def Obligations.AlphaIsIgnored : Prop :=
  ∀ (i : Instr) (s : State) (a b : Word), i ∈ [Instr.cccCmp, .pbInsert, .pbLookup] →
    a.toNat % 2 ^ 24 = s.arg0.toNat % 2 ^ 24 → b.toNat % 2 ^ 24 = s.arg1.toNat % 2 ^ 24 →
    ∃ t, exec i s = .next t ∧
      exec i { s with arg0 := a, arg1 := b } = .next { t with arg0 := a, arg1 := b }

/-- R112: CCC_CMP. -/
def Obligations.CompareColours : Prop :=
  decode 0x00000010#32 = .ok .cccCmp ∧
  ∀ (s : State) (ka kb : Nat), ka = (colourKey (colourOf s.arg0)).toNat → kb = (colourKey (colourOf s.arg1)).toNat →
    exec .cccCmp s = .next { s with
      res0 := if ka < kb then 1#32 else if ka = kb then 2#32 else 4#32
      res1 := BitVec.ofNat 32 ka
      lastCode := .ok }

/-! The palette builder (42_palette_builder.md) -/

/-- R121: PB_CLEAR. The palette memory itself stays. -/
def Obligations.ClearPalette : Prop :=
  decode 0x00000020#32 = .ok .pbClear ∧
  ∀ s : State, exec .pbClear s =
    .next { s with pbState := .building, pcount := 0#25, iwidth := 0#5, lastCode := .ok }

/-- R120: where the valid entries ascend, lb(k) is the one position with the smaller entries below it and the others from
it on, and k is present exactly when it stands there. -/
def Obligations.LowerBoundIsTheSortedPosition : Prop :=
  ∀ (s : State) (k : Key), (palEntries s).Pairwise (· < ·) →
    (∀ p, p ≤ s.pcount.toNat →
      (lowerBound s k = p ↔
        (∀ i, i < p → palGet s.pal i < k) ∧ (∀ i, p ≤ i → i < s.pcount.toNat → ¬ palGet s.pal i < k))) ∧
    ((∃ i, i < s.pcount.toNat ∧ palGet s.pal i = k) ↔
      lowerBound s k < s.pcount.toNat ∧ palGet s.pal (lowerBound s k) = k)

/-- R122: PB_INSERT, every case in the order of its checks. The colour is present when some valid entry is its key. -/
def Obligations.InsertColour : Prop :=
  decode 0x00000021#32 = .ok .pbInsert ∧
  ∀ (s : State) (k : Key), k = colourKey (colourOf s.arg0) →
    (s.pbState ≠ .building → ReportsOnly .eBadState s (exec .pbInsert s)) ∧
    (s.pbState = .building → (palEntries s).Pairwise (· < ·) →
      ∀ p, p < s.pcount.toNat → palGet s.pal p = k →
        exec .pbInsert s = .next { s with res0 := BitVec.ofNat 32 p, res1 := 1#32, lastCode := .ok }) ∧
    (s.pbState = .building → (∀ i, i < s.pcount.toNat → palGet s.pal i ≠ k) → s.pcount.toNat = Config.palCap →
      ReportsOnly .ePaletteOverflow s (exec .pbInsert s)) ∧
    (s.pbState = .building → (∀ i, i < s.pcount.toNat → palGet s.pal i ≠ k) → s.pcount.toNat < Config.palCap →
      palWf s.pal = true →
      ∃ pal, palWf pal = true ∧
        (∀ i, palGet pal i =
          if i < lowerBound s k then palGet s.pal i
          else if i = lowerBound s k then k
          else if i ≤ s.pcount.toNat then palGet s.pal (i - 1)
          else palGet s.pal i) ∧
        exec .pbInsert s = .next { s with
          pal := pal
          pcount := BitVec.ofNat 25 (s.pcount.toNat + 1)
          res0 := BitVec.ofNat 32 (lowerBound s k)
          res1 := 0#32
          lastCode := .ok })

/-- R122, corner case: a memory of 2^24 entries can never overflow, because there are only 2^24 colours. -/
def Obligations.FullCapacityNeverOverflows : Prop :=
  ∀ s t : State, (palEntries s).Pairwise (· < ·) → s.pcount.toNat ≤ 2 ^ 24 → insertColour (2 ^ 24) s = .next t →
    t.lastCode ≠ .ePaletteOverflow

/-- R123: after PB_CLEAR and insertions that all succeed, the valid entries are the set of the inserted colours' keys in
ascending order; insertions of no more distinct colours than PAL_CAP all succeed; and a colour whose insertion overflowed
is missing from the palette. -/
def Obligations.InsertionSortsTheColourSet : Prop :=
  (∀ (cs : List Word) (s s0 t : State), exec .pbClear s = .next s0 → insertAll cs s0 = some t →
    (palEntries t).Pairwise (· < ·) ∧
    (∀ k, k ∈ palEntries t ↔ ∃ c ∈ cs, colourKey (colourOf c) = k) ∧
    t.pcount.toNat = (cs.map fun c => colourKey (colourOf c)).dedup.length) ∧
  (∀ (cs : List Word) (s s0 : State), exec .pbClear s = .next s0 →
    (cs.map fun c => colourKey (colourOf c)).dedup.length ≤ Config.palCap → ∃ t, insertAll cs s0 = some t) ∧
  (∀ s t : State, (palEntries s).Pairwise (· < ·) → exec .pbInsert s = .next t → t.lastCode = .ePaletteOverflow →
    colourKey (colourOf s.arg0) ∉ palEntries t)

/-- R128: two runs that insert the same set of colours, in whatever order and multiplicity, and seal reach the same PCOUNT,
palette, IWIDTH and lookup results. -/
def Obligations.PaletteDependsOnlyOnTheSet : Prop :=
  ∀ (cs cs' : List Word) (s s' s0 s0' t t' u u' : State), (∀ c, c ∈ cs ↔ c ∈ cs') →
    exec .pbClear s = .next s0 → exec .pbClear s' = .next s0' →
    insertAll cs s0 = some t → insertAll cs' s0' = some t' →
    exec .pbSeal t = .next u → exec .pbSeal t' = .next u' →
    u.pcount = u'.pcount ∧ palEntries u = palEntries u' ∧ u.iwidth = u'.iwidth ∧
    ∀ c, ∃ v v', exec .pbLookup { u with arg0 := c } = .next v ∧ exec .pbLookup { u' with arg0 := c } = .next v' ∧
      v.lastCode = v'.lastCode ∧ (v.lastCode = .ok → v.res0 = v'.res0)

/-- R124: PB_SEAL, every case in the order of its checks. -/
def Obligations.SealPalette : Prop :=
  decode 0x00000022#32 = .ok .pbSeal ∧
  ∀ s : State,
    (s.pbState ≠ .building → ReportsOnly .eBadState s (exec .pbSeal s)) ∧
    (s.pbState = .building → s.pcount.toNat = 0 → ReportsOnly .eInvalidInput s (exec .pbSeal s)) ∧
    (s.pbState = .building → 0 < s.pcount.toNat → s.pcount.toNat ≤ Config.palCap →
      exec .pbSeal s = .next { s with
        pbState := .sealed
        iwidth := BitVec.ofNat 5 (indexWidth s.pcount.toNat)
        res0 := BitVec.ofNat 32 s.pcount.toNat
        res1 := BitVec.ofNat 32 (indexWidth s.pcount.toNat)
        lastCode := .ok })

/-- R125: PB_LOOKUP, every case in the order of its checks. -/
def Obligations.LookupColour : Prop :=
  decode 0x00000023#32 = .ok .pbLookup ∧
  ∀ (s : State) (k : Key), k = colourKey (colourOf s.arg0) →
    (s.pbState ≠ .sealed → ReportsOnly .eBadState s (exec .pbLookup s)) ∧
    (s.pbState = .sealed → (∀ i, i < s.pcount.toNat → palGet s.pal i ≠ k) →
      ReportsOnly .eNotFound s (exec .pbLookup s)) ∧
    (s.pbState = .sealed → (palEntries s).Pairwise (· < ·) →
      ∀ p, p < s.pcount.toNat → palGet s.pal p = k →
        exec .pbLookup s = .next { s with res0 := BitVec.ofNat 32 p, lastCode := .ok })

/-- R126: PB_READ, every case in the order of its checks. -/
def Obligations.ReadPaletteEntry : Prop :=
  decode 0x00000024#32 = .ok .pbRead ∧
  ∀ s : State,
    (s.pbState ≠ .sealed → ReportsOnly .eBadState s (exec .pbRead s)) ∧
    (s.pbState = .sealed → s.pcount.toNat ≤ s.arg0.toNat → ReportsOnly .eIndexOutOfRange s (exec .pbRead s)) ∧
    (s.pbState = .sealed → s.arg0.toNat < s.pcount.toNat →
      exec .pbRead s = .next { s with
        res0 := BitVec.ofNat 32 (palGet s.pal s.arg0.toNat).toNat
        lastCode := .ok })

/-! The index width calculator (43_index_width.md) -/

/-- R140: iw(n) is the least w with 2^w ≥ n, it is at most 24, and its values at the ends of its range. -/
def Obligations.IndexWidthIsLeast : Prop :=
  (∀ n, 1 ≤ n → n ≤ 2 ^ 24 →
    indexWidth n = bitlen (n - 1) ∧ n ≤ 2 ^ indexWidth n ∧ (1 ≤ indexWidth n → 2 ^ (indexWidth n - 1) < n) ∧
    (∀ w, n ≤ 2 ^ w → indexWidth n ≤ w) ∧ indexWidth n ≤ 24) ∧
  indexWidth 1 = 0 ∧ indexWidth (2 ^ 24) = 24

/-- R141: IWC_CALC, every case: RES0 is the w with 2^(w-1) < n ≤ 2^w, written without the function of R140. -/
def Obligations.CalculateIndexWidth : Prop :=
  decode 0x00000030#32 = .ok .iwcCalc ∧
  ∀ s : State,
    (s.arg0.toNat = 0 ∨ 2 ^ 24 < s.arg0.toNat → ReportsOnly .eInvalidPaletteSize s (exec .iwcCalc s)) ∧
    (∀ w, 1 ≤ s.arg0.toNat → s.arg0.toNat ≤ 2 ^ 24 → s.arg0.toNat ≤ 2 ^ w → (∀ v, v < w → 2 ^ v < s.arg0.toNat) →
      exec .iwcCalc s = .next { s with res0 := BitVec.ofNat 32 w, lastCode := .ok })

/-! The bit packer and unpacker (44_bit_packer.md) -/

/-- R151: BP_CFG_PACK. -/
def Obligations.ConfigurePack : Prop :=
  decode 0x00000040#32 = .ok .bpCfgPack ∧
  ∀ (s : State) (need : Nat), need = (s.arg0.toNat * s.arg1.toNat + 7) / 8 →
    (32 < s.arg1.toNat → ReportsOnly .eBadOperand s (exec .bpCfgPack s)) ∧
    (s.arg1.toNat ≤ 32 → need < 2 ^ 64 ∧
      exec .bpCfgPack s = .next { s with
        bpMode := .pack, w := BitVec.ofNat 6 s.arg1.toNat, n := s.arg0, vcount := 0#32, bcount := 0#64
        bneed := BitVec.ofNat 64 need, limit := 0#32, acc := 0#40, accBits := 0#6, ended := false, flushed := false
        res0 := BitVec.ofNat 32 (need % 2 ^ 32), res1 := BitVec.ofNat 32 (need / 2 ^ 32), lastCode := .ok })

/-- R152: BP_PUSH_VALUE, every case in the order of its checks. -/
def Obligations.PushValue : Prop :=
  decode 0x00000041#32 = .ok .bpPushValue ∧
  ∀ s : State,
    (s.bpMode ≠ .pack → ReportsOnly .eBadState s (exec .bpPushValue s)) ∧
    (s.bpMode = .pack → 2 ^ s.w.toNat ≤ s.arg0.toNat → ReportsOnly .eBadOperand s (exec .bpPushValue s)) ∧
    (s.bpMode = .pack → s.arg0.toNat < 2 ^ s.w.toNat → s.vcount = s.n → ReportsOnly .eCount s (exec .bpPushValue s)) ∧
    (s.bpMode = .pack → s.arg0.toNat < 2 ^ s.w.toNat → s.vcount ≠ s.n → 8 ≤ s.accBits.toNat →
      ReportsOnly .eOverrun s (exec .bpPushValue s)) ∧
    (s.bpMode = .pack → s.arg0.toNat < 2 ^ s.w.toNat → s.vcount ≠ s.n → s.accBits.toNat < 8 → GearInv s →
      exec .bpPushValue s = .next { s with
        acc := BitVec.ofNat 40 (s.acc.toNat + s.arg0.toNat * 2 ^ s.accBits.toNat)
        accBits := BitVec.ofNat 6 (s.accBits.toNat + s.w.toNat)
        vcount := BitVec.ofNat 32 (s.vcount.toNat + 1)
        lastCode := .ok })

/-- R153: BP_POP_BYTE, every case in the order of its checks. -/
def Obligations.PopByte : Prop :=
  decode 0x00000042#32 = .ok .bpPopByte ∧
  ∀ s : State,
    (s.bpMode ≠ .pack → ReportsOnly .eBadState s (exec .bpPopByte s)) ∧
    (s.bpMode = .pack → s.accBits.toNat < 8 → ReportsOnly .eUnderrun s (exec .bpPopByte s)) ∧
    (s.bpMode = .pack → 8 ≤ s.accBits.toNat →
      exec .bpPopByte s = .next { s with
        res0 := BitVec.ofNat 32 (s.acc.toNat % 256)
        acc := BitVec.ofNat 40 (s.acc.toNat / 256)
        accBits := BitVec.ofNat 6 (s.accBits.toNat - 8)
        bcount := BitVec.ofNat 64 (s.bcount.toNat + 1)
        lastCode := .ok })

/-- R154: BP_FLUSH, every case in the order of its checks; where bits wait, the padding bits
above them are 0 already, and where N*W is a multiple of 8 none wait. -/
def Obligations.FlushStream : Prop :=
  decode 0x00000043#32 = .ok .bpFlush ∧
  ∀ s : State,
    (s.bpMode ≠ .pack → ReportsOnly .eBadState s (exec .bpFlush s)) ∧
    (s.bpMode = .pack → s.vcount ≠ s.n → ReportsOnly .eCount s (exec .bpFlush s)) ∧
    (s.bpMode = .pack → s.vcount = s.n → 8 ≤ s.accBits.toNat → ReportsOnly .eOverrun s (exec .bpFlush s)) ∧
    (s.bpMode = .pack → s.vcount = s.n → s.accBits.toNat < 8 →
      (s.accBits.toNat = 0 → exec .bpFlush s = .next { s with flushed := true, lastCode := .ok }) ∧
      (0 < s.accBits.toNat →
        exec .bpFlush s = .next { s with accBits := 8#6, flushed := true, lastCode := .ok } ∧
        (GearInv s → ∀ j, s.accBits.toNat ≤ j → s.acc.getLsbD j = false)) ∧
      (GearInv s → s.n.toNat * s.w.toNat % 8 = 0 → s.accBits.toNat = 0))

/-- R157: BP_CFG_UNPACK. -/
def Obligations.ConfigureUnpack : Prop :=
  decode 0x00000048#32 = .ok .bpCfgUnpack ∧
  ∀ (s : State) (need : Nat), need = (s.arg0.toNat * s.arg1.toNat + 7) / 8 →
    (32 < s.arg1.toNat → ReportsOnly .eBadOperand s (exec .bpCfgUnpack s)) ∧
    (s.arg1.toNat ≤ 32 → need < 2 ^ 64 ∧
      exec .bpCfgUnpack s = .next { s with
        bpMode := .unpack, w := BitVec.ofNat 6 s.arg1.toNat, n := s.arg0, vcount := 0#32, bcount := 0#64
        bneed := BitVec.ofNat 64 need, limit := s.arg2, acc := 0#40, accBits := 0#6, ended := false, flushed := false
        res0 := BitVec.ofNat 32 (need % 2 ^ 32), res1 := BitVec.ofNat 32 (need / 2 ^ 32), lastCode := .ok })

/-- R160: BP_PUSH_BYTE, every case in the order of its checks. -/
def Obligations.PushByte : Prop :=
  decode 0x00000049#32 = .ok .bpPushByte ∧
  ∀ s : State,
    (s.bpMode ≠ .unpack ∨ s.ended = true → ReportsOnly .eBadState s (exec .bpPushByte s)) ∧
    (s.bpMode = .unpack → s.ended = false → 256 ≤ s.arg0.toNat → ReportsOnly .eBadOperand s (exec .bpPushByte s)) ∧
    (s.bpMode = .unpack → s.ended = false → s.arg0.toNat < 256 → s.bcount = s.bneed →
      ReportsOnly .eCount s (exec .bpPushByte s)) ∧
    (s.bpMode = .unpack → s.ended = false → s.arg0.toNat < 256 → s.bcount ≠ s.bneed → 32 < s.accBits.toNat →
      ReportsOnly .eOverrun s (exec .bpPushByte s)) ∧
    (s.bpMode = .unpack → s.ended = false → s.arg0.toNat < 256 → s.bcount ≠ s.bneed → s.accBits.toNat ≤ 32 →
      GearInv s →
      exec .bpPushByte s = .next { s with
        acc := BitVec.ofNat 40 (s.acc.toNat + s.arg0.toNat * 2 ^ s.accBits.toNat)
        accBits := BitVec.ofNat 6 (s.accBits.toNat + 8)
        bcount := BitVec.ofNat 64 (s.bcount.toNat + 1)
        lastCode := .ok })

/-- R161: BP_POP_VALUE, every case in the order of its checks, for the widths a stream can have. -/
def Obligations.PopValue : Prop :=
  decode 0x0000004A#32 = .ok .bpPopValue ∧
  ∀ (s : State) (v : Nat), v = s.acc.toNat % 2 ^ s.w.toNat →
    (s.bpMode ≠ .unpack → ReportsOnly .eBadState s (exec .bpPopValue s)) ∧
    (s.bpMode = .unpack → s.vcount = s.n → ReportsOnly .eCount s (exec .bpPopValue s)) ∧
    (s.bpMode = .unpack → s.vcount ≠ s.n → s.accBits.toNat < s.w.toNat → s.ended = true →
      ReportsOnly .eTruncatedData s (exec .bpPopValue s)) ∧
    (s.bpMode = .unpack → s.vcount ≠ s.n → s.accBits.toNat < s.w.toNat → s.ended = false →
      ReportsOnly .eUnderrun s (exec .bpPopValue s)) ∧
    (s.bpMode = .unpack → s.vcount ≠ s.n → s.w.toNat ≤ s.accBits.toNat → s.w.toNat ≤ 32 →
      s.limit.toNat ≠ 0 → s.limit.toNat ≤ v → ReportsOnly .eIndexOutOfRange s (exec .bpPopValue s)) ∧
    (s.bpMode = .unpack → s.vcount ≠ s.n → s.w.toNat ≤ s.accBits.toNat → s.w.toNat ≤ 32 →
      s.limit.toNat = 0 ∨ v < s.limit.toNat →
      exec .bpPopValue s = .next { s with
        res0 := BitVec.ofNat 32 v
        acc := BitVec.ofNat 40 (s.acc.toNat / 2 ^ s.w.toNat)
        accBits := BitVec.ofNat 6 (s.accBits.toNat - s.w.toNat)
        vcount := BitVec.ofNat 32 (s.vcount.toNat + 1)
        lastCode := .ok })

/-- R158, R162: BP_END and BP_STOP. -/
def Obligations.EndAndStop : Prop :=
  decode 0x0000004B#32 = .ok .bpEnd ∧ decode 0x0000004F#32 = .ok .bpStop ∧
  ∀ s : State,
    (s.bpMode ≠ .unpack → ReportsOnly .eBadState s (exec .bpEnd s)) ∧
    (s.bpMode = .unpack → exec .bpEnd s = .next { s with ended := true, lastCode := .ok }) ∧
    exec .bpStop s = .next { s with
      bpMode := .off, w := 0#6, n := 0#32, vcount := 0#32, bcount := 0#64, bneed := 0#64, limit := 0#32
      acc := 0#40, accBits := 0#6, ended := false, flushed := false, lastCode := .ok }

/-- R65: value i occupies stream bits i*w to i*w+w-1, bit 0 first; stream bit j is bit j mod 8 of byte j div 8; the bits
past the last value are 0. -/
def Obligations.PackedBitOrder : Prop :=
  ∀ (w : Nat) (vs : List Nat), (∀ v ∈ vs, v < 2 ^ w) →
    (packBytes w vs).length = (vs.length * w + 7) / 8 ∧
    (∀ i b, i < vs.length → b < w →
      ((packBytes w vs).getD ((i * w + b) / 8) 0).testBit ((i * w + b) % 8) = (vs.getD i 0).testBit b) ∧
    (∀ j, vs.length * w ≤ j → ((packBytes w vs).getD (j / 8) 0).testBit (j % 8) = false)

/-- R155, its proof's invariant: ACC holds the pushed values' stream bits not yet popped. A push appends its value to the
stream, a pop gives the next byte of it, and a flush changes no bit. -/
def Obligations.PackRefinesStream : Prop :=
  ∀ (s t : State) (vs : List Nat), GearInv s → s.bpMode = .pack →
    vs.length = s.vcount.toNat → (∀ v ∈ vs, v < 2 ^ s.w.toNat) →
    s.acc.toNat = streamInt s.w.toNat vs / 2 ^ (8 * s.bcount.toNat) →
    (exec .bpPushValue s = .next t → t.lastCode = .ok →
      t.acc.toNat = streamInt t.w.toNat (vs ++ [s.arg0.toNat]) / 2 ^ (8 * t.bcount.toNat)) ∧
    (exec .bpPopByte s = .next t → t.lastCode = .ok →
      t.res0.toNat = streamInt s.w.toNat vs / 2 ^ (8 * s.bcount.toNat) % 256 ∧
      t.acc.toNat = streamInt t.w.toNat vs / 2 ^ (8 * t.bcount.toNat)) ∧
    (exec .bpFlush s = .next t → t.lastCode = .ok →
      t.acc.toNat = streamInt t.w.toNat vs / 2 ^ (8 * t.bcount.toNat))

/-- R159: ACC holds the pushed bytes' stream bits not yet read. A pushed byte is appended to the stream, and a popped value
is the next w bits of it. -/
def Obligations.UnpackRefinesStream : Prop :=
  ∀ (s t : State) (us : List Nat), GearInv s → s.bpMode = .unpack →
    us.length = s.bcount.toNat → (∀ u ∈ us, u < 256) →
    s.acc.toNat = streamInt 8 us / 2 ^ (s.vcount.toNat * s.w.toNat) →
    (exec .bpPushByte s = .next t → t.lastCode = .ok →
      t.acc.toNat = streamInt 8 (us ++ [s.arg0.toNat]) / 2 ^ (t.vcount.toNat * t.w.toNat)) ∧
    (exec .bpPopValue s = .next t → t.lastCode = .ok →
      t.res0.toNat = streamInt 8 us / 2 ^ (s.vcount.toNat * s.w.toNat) % 2 ^ s.w.toNat ∧
      t.acc.toNat = streamInt 8 us / 2 ^ (t.vcount.toNat * t.w.toNat))

/-- R155: the pack law. From any state, the host's packing sequence succeeds throughout, gives exactly pack(v, w), and ends
with BCOUNT = BNEED = ceil(N*w/8) and BP_DONE. -/
def Obligations.PackLaw : Prop :=
  ∀ (s : State) (w : Word) (vs : List Word), w.toNat ≤ 32 → vs.length < 2 ^ 32 → (∀ v ∈ vs, v.toNat < 2 ^ w.toNat) →
    ∃ bs t, packRun w vs s = some (bs, t) ∧
      bs.map (·.toNat) = packBytes w.toNat (vs.map (·.toNat)) ∧
      bs.length = (vs.length * w.toNat + 7) / 8 ∧ t.bcount = t.bneed ∧ t.bcount.toNat = bs.length ∧ bpDone t = true

/-- R159: from any state, reading n values of width w from bytes that hold enough bits gives unpack(u, w, n). -/
def Obligations.UnpackContract : Prop :=
  ∀ (s : State) (n w : Word) (us : List Byte), w.toNat ≤ 32 → n.toNat * w.toNat ≤ 8 * us.length →
    ∃ vs t, unpackRun n w 0#32 us s = some (vs, t) ∧
      unpackValues w.toNat n.toNat (us.map (·.toNat)) = some (vs.map (·.toNat))

/-- R163: the round trip, for every width 0 to 32. The two sequences may run from any two states. -/
def Obligations.RoundTrip : Prop :=
  ∀ (s s' : State) (w : Word) (vs : List Word),
    w.toNat ≤ 32 → vs.length < 2 ^ 32 → (∀ v ∈ vs, v.toNat < 2 ^ w.toNat) →
    ∃ bs t u, packRun w vs s = some (bs, t) ∧ unpackRun (BitVec.ofNat 32 vs.length) w 0#32 bs s' = some (vs, u)

/-- R164: once all BNEED bytes are pushed a value never runs short; and after BP_END a value runs short exactly when its
last bit lies past the bytes pushed. -/
def Obligations.FullStreamNeverRunsShort : Prop :=
  ∀ s t : State, GearInv s → s.bpMode = .unpack → exec .bpPopValue s = .next t →
    s.n.toNat * s.w.toNat ≤ 8 * s.bneed.toNat ∧
    (s.bcount = s.bneed → s.vcount.toNat < s.n.toNat → t.lastCode ≠ .eUnderrun ∧ t.lastCode ≠ .eTruncatedData) ∧
    (s.ended = true → s.vcount.toNat < s.n.toNat →
      (t.lastCode = .eTruncatedData ↔ 8 * s.bcount.toNat < (s.vcount.toNat + 1) * s.w.toNat))

/-! The invariant of a run (10_state.md) -/

/-- R45: the invariant holds at reset. -/
def Obligations.ResetMeetsInvariant : Prop := MachineInv State.reset

/-- R14, R32, R33, R37 to R41: every step keeps the invariant, from every state that has it, whatever the host does. -/
def Obligations.StepKeepsInvariant : Prop :=
  ∀ s t : State, MachineInv s → step s = .next t → MachineInv t

/-- R33: at every point between commands the valid entries are strictly ascending, in every PB_STATE. -/
def Obligations.PaletteStaysAscending : Prop :=
  ∀ s t : State, MachineInv s → step s = .next t →
    ∀ i, i + 1 < t.pcount.toNat → palGet t.pal i < palGet t.pal (i + 1)
end

