-- ==== Sys2Proof/Laws/Cure.lean ====
section
/-! SUPPORT. What repeating a cure does to a held command (70_reset_and_hazards.md R242). -/

namespace Sys2Proof.Machine

@[simp] theorem holds_next (t : State) : holds (.next t) = decide (codeClass t.lastCode = .hold) := rfl

/-- Repeating a cure ends in a good state. Ready: the states from which the cure is still to work, in each of which a
measure falls with the cure, and the held command holds no more at measure 0. Done: the states the cure may end in for good,
such as a failed cure's. A state of the first kind in which the held command does not hold is good, and so is every state of
the second. -/
theorem cureWhile_good {held : State → Result} {cure : Nat → State → Result} {Ready Done Good : State → Prop} {m : State → Nat}
    (free : ∀ u, Ready u → m u = 0 → holds (held u) = false)
    (falls : ∀ k u, Ready u → 0 < m u → ∃ t, cure k u = .next t ∧ ((Ready t ∧ m t < m u) ∨ Done t))
    (stays : ∀ k u, Done u → ∃ t, cure k u = .next t ∧ Done t)
    (ready : ∀ u, Ready u → holds (held u) = false → Good u) (done : ∀ u, Done u → Good u) :
    ∀ k u, (Ready u ∧ m u ≤ k) ∨ Done u → Good (cureWhile held cure k u) := by
  intro k
  induction k with
  | zero =>
    rintro u (⟨h, hm⟩ | h)
    · exact ready u h (free u h (Nat.le_zero.1 hm))
    · exact done u h
  | succ k ih =>
    intro u h
    unfold cureWhile
    split
    next hh =>
      rcases h with ⟨h, hm⟩ | h
      · have hp : 0 < m u := by
          by_contra hz
          rw [free u h (by omega)] at hh
          cases hh
        obtain ⟨t, ht, hc⟩ := falls k u h hp
        simp only [ht]
        exact ih t (hc.imp (fun x => ⟨x.1, by omega⟩) id)
      · obtain ⟨t, ht, hc⟩ := stays k u h
        simp only [ht]
        exact ih t (.inr hc)
    next hh => exact h.elim (fun h => ready u h.1 (by simpa using hh)) (done u)

end Sys2Proof.Machine
end

