-- ==== Sys2Proof/Laws/State.lean ====
section
/-! SUPPORT. One lemma per field per named update of the state, so that no proof unfolds a record update. -/

namespace Sys2Proof.Machine

/-! report: LASTCODE, ERR and FIRSTERR, and nothing else (60_exceptions.md R203) -/

@[simp] theorem report_lastCode (c : StatusCode) (s : State) : (report c s).lastCode = c := by
  unfold report; split <;> rfl

theorem report_err (c : StatusCode) (s : State) :
    (report c s).err = (s.err || decide (codeClass c = .error)) := by
  unfold report; split <;> simp [*]

theorem report_firstErr (c : StatusCode) (s : State) :
    (report c s).firstErr = if codeClass c = .error ∧ s.firstErr = .ok then c else s.firstErr := by
  unfold report; split <;> simp [*]

@[simp] theorem report_arg0 (c : StatusCode) (s : State) : (report c s).arg0 = s.arg0 := by unfold report; split <;> rfl
@[simp] theorem report_arg1 (c : StatusCode) (s : State) : (report c s).arg1 = s.arg1 := by unfold report; split <;> rfl
@[simp] theorem report_arg2 (c : StatusCode) (s : State) : (report c s).arg2 = s.arg2 := by unfold report; split <;> rfl
@[simp] theorem report_res0 (c : StatusCode) (s : State) : (report c s).res0 = s.res0 := by unfold report; split <;> rfl
@[simp] theorem report_res1 (c : StatusCode) (s : State) : (report c s).res1 = s.res1 := by unfold report; split <;> rfl
@[simp] theorem report_pbState (c : StatusCode) (s : State) : (report c s).pbState = s.pbState := by unfold report; split <;> rfl
@[simp] theorem report_pcount (c : StatusCode) (s : State) : (report c s).pcount = s.pcount := by unfold report; split <;> rfl
@[simp] theorem report_pal (c : StatusCode) (s : State) : (report c s).pal = s.pal := by unfold report; split <;> rfl
@[simp] theorem report_iwidth (c : StatusCode) (s : State) : (report c s).iwidth = s.iwidth := by unfold report; split <;> rfl
@[simp] theorem report_bpMode (c : StatusCode) (s : State) : (report c s).bpMode = s.bpMode := by unfold report; split <;> rfl
@[simp] theorem report_w (c : StatusCode) (s : State) : (report c s).w = s.w := by unfold report; split <;> rfl
@[simp] theorem report_n (c : StatusCode) (s : State) : (report c s).n = s.n := by unfold report; split <;> rfl
@[simp] theorem report_vcount (c : StatusCode) (s : State) : (report c s).vcount = s.vcount := by unfold report; split <;> rfl
@[simp] theorem report_bcount (c : StatusCode) (s : State) : (report c s).bcount = s.bcount := by unfold report; split <;> rfl
@[simp] theorem report_bneed (c : StatusCode) (s : State) : (report c s).bneed = s.bneed := by unfold report; split <;> rfl
@[simp] theorem report_limit (c : StatusCode) (s : State) : (report c s).limit = s.limit := by unfold report; split <;> rfl
@[simp] theorem report_acc (c : StatusCode) (s : State) : (report c s).acc = s.acc := by unfold report; split <;> rfl
@[simp] theorem report_accBits (c : StatusCode) (s : State) : (report c s).accBits = s.accBits := by unfold report; split <;> rfl
@[simp] theorem report_ended (c : StatusCode) (s : State) : (report c s).ended = s.ended := by unfold report; split <;> rfl
@[simp] theorem report_flushed (c : StatusCode) (s : State) : (report c s).flushed = s.flushed := by unfold report; split <;> rfl
@[simp] theorem report_busFault (c : StatusCode) (s : State) : (report c s).busFault = s.busFault := by unfold report; split <;> rfl
@[simp] theorem report_responses (c : StatusCode) (s : State) : (report c s).responses = s.responses := by unfold report; split <;> rfl
@[simp] theorem report_pending (c : StatusCode) (s : State) : (report c s).pending = s.pending := by unfold report; split <;> rfl

/-! success: LASTCODE, and nothing else (30_encoding.md R81) -/

@[simp] theorem success_arg0 (s : State) : (success s).arg0 = s.arg0 := rfl
@[simp] theorem success_arg1 (s : State) : (success s).arg1 = s.arg1 := rfl
@[simp] theorem success_arg2 (s : State) : (success s).arg2 = s.arg2 := rfl
@[simp] theorem success_res0 (s : State) : (success s).res0 = s.res0 := rfl
@[simp] theorem success_res1 (s : State) : (success s).res1 = s.res1 := rfl
@[simp] theorem success_err (s : State) : (success s).err = s.err := rfl
@[simp] theorem success_lastCode (s : State) : (success s).lastCode = .ok := rfl
@[simp] theorem success_firstErr (s : State) : (success s).firstErr = s.firstErr := rfl
@[simp] theorem success_pbState (s : State) : (success s).pbState = s.pbState := rfl
@[simp] theorem success_pcount (s : State) : (success s).pcount = s.pcount := rfl
@[simp] theorem success_pal (s : State) : (success s).pal = s.pal := rfl
@[simp] theorem success_iwidth (s : State) : (success s).iwidth = s.iwidth := rfl
@[simp] theorem success_bpMode (s : State) : (success s).bpMode = s.bpMode := rfl
@[simp] theorem success_w (s : State) : (success s).w = s.w := rfl
@[simp] theorem success_n (s : State) : (success s).n = s.n := rfl
@[simp] theorem success_vcount (s : State) : (success s).vcount = s.vcount := rfl
@[simp] theorem success_bcount (s : State) : (success s).bcount = s.bcount := rfl
@[simp] theorem success_bneed (s : State) : (success s).bneed = s.bneed := rfl
@[simp] theorem success_limit (s : State) : (success s).limit = s.limit := rfl
@[simp] theorem success_acc (s : State) : (success s).acc = s.acc := rfl
@[simp] theorem success_accBits (s : State) : (success s).accBits = s.accBits := rfl
@[simp] theorem success_ended (s : State) : (success s).ended = s.ended := rfl
@[simp] theorem success_flushed (s : State) : (success s).flushed = s.flushed := rfl
@[simp] theorem success_busFault (s : State) : (success s).busFault = s.busFault := rfl
@[simp] theorem success_responses (s : State) : (success s).responses = s.responses := rfl
@[simp] theorem success_pending (s : State) : (success s).pending = s.pending := rfl

/-! answer: the answers given, and nothing else -/

@[simp] theorem answer_arg0 (r : Response) (s : State) : (answer r s).arg0 = s.arg0 := rfl
@[simp] theorem answer_arg1 (r : Response) (s : State) : (answer r s).arg1 = s.arg1 := rfl
@[simp] theorem answer_arg2 (r : Response) (s : State) : (answer r s).arg2 = s.arg2 := rfl
@[simp] theorem answer_res0 (r : Response) (s : State) : (answer r s).res0 = s.res0 := rfl
@[simp] theorem answer_res1 (r : Response) (s : State) : (answer r s).res1 = s.res1 := rfl
@[simp] theorem answer_err (r : Response) (s : State) : (answer r s).err = s.err := rfl
@[simp] theorem answer_lastCode (r : Response) (s : State) : (answer r s).lastCode = s.lastCode := rfl
@[simp] theorem answer_firstErr (r : Response) (s : State) : (answer r s).firstErr = s.firstErr := rfl
@[simp] theorem answer_pbState (r : Response) (s : State) : (answer r s).pbState = s.pbState := rfl
@[simp] theorem answer_pcount (r : Response) (s : State) : (answer r s).pcount = s.pcount := rfl
@[simp] theorem answer_pal (r : Response) (s : State) : (answer r s).pal = s.pal := rfl
@[simp] theorem answer_iwidth (r : Response) (s : State) : (answer r s).iwidth = s.iwidth := rfl
@[simp] theorem answer_bpMode (r : Response) (s : State) : (answer r s).bpMode = s.bpMode := rfl
@[simp] theorem answer_w (r : Response) (s : State) : (answer r s).w = s.w := rfl
@[simp] theorem answer_n (r : Response) (s : State) : (answer r s).n = s.n := rfl
@[simp] theorem answer_vcount (r : Response) (s : State) : (answer r s).vcount = s.vcount := rfl
@[simp] theorem answer_bcount (r : Response) (s : State) : (answer r s).bcount = s.bcount := rfl
@[simp] theorem answer_bneed (r : Response) (s : State) : (answer r s).bneed = s.bneed := rfl
@[simp] theorem answer_limit (r : Response) (s : State) : (answer r s).limit = s.limit := rfl
@[simp] theorem answer_acc (r : Response) (s : State) : (answer r s).acc = s.acc := rfl
@[simp] theorem answer_accBits (r : Response) (s : State) : (answer r s).accBits = s.accBits := rfl
@[simp] theorem answer_ended (r : Response) (s : State) : (answer r s).ended = s.ended := rfl
@[simp] theorem answer_flushed (r : Response) (s : State) : (answer r s).flushed = s.flushed := rfl
@[simp] theorem answer_busFault (r : Response) (s : State) : (answer r s).busFault = s.busFault := rfl
@[simp] theorem answer_responses (r : Response) (s : State) : (answer r s).responses = s.responses ++ [r] := rfl
@[simp] theorem answer_pending (r : Response) (s : State) : (answer r s).pending = s.pending := rfl

/-! busError: the answers given and the fault bit (60_exceptions.md R212) -/

@[simp] theorem busError_arg0 (s : State) : (busError s).arg0 = s.arg0 := rfl
@[simp] theorem busError_arg1 (s : State) : (busError s).arg1 = s.arg1 := rfl
@[simp] theorem busError_arg2 (s : State) : (busError s).arg2 = s.arg2 := rfl
@[simp] theorem busError_res0 (s : State) : (busError s).res0 = s.res0 := rfl
@[simp] theorem busError_res1 (s : State) : (busError s).res1 = s.res1 := rfl
@[simp] theorem busError_err (s : State) : (busError s).err = s.err := rfl
@[simp] theorem busError_lastCode (s : State) : (busError s).lastCode = s.lastCode := rfl
@[simp] theorem busError_firstErr (s : State) : (busError s).firstErr = s.firstErr := rfl
@[simp] theorem busError_pbState (s : State) : (busError s).pbState = s.pbState := rfl
@[simp] theorem busError_pcount (s : State) : (busError s).pcount = s.pcount := rfl
@[simp] theorem busError_pal (s : State) : (busError s).pal = s.pal := rfl
@[simp] theorem busError_iwidth (s : State) : (busError s).iwidth = s.iwidth := rfl
@[simp] theorem busError_bpMode (s : State) : (busError s).bpMode = s.bpMode := rfl
@[simp] theorem busError_w (s : State) : (busError s).w = s.w := rfl
@[simp] theorem busError_n (s : State) : (busError s).n = s.n := rfl
@[simp] theorem busError_vcount (s : State) : (busError s).vcount = s.vcount := rfl
@[simp] theorem busError_bcount (s : State) : (busError s).bcount = s.bcount := rfl
@[simp] theorem busError_bneed (s : State) : (busError s).bneed = s.bneed := rfl
@[simp] theorem busError_limit (s : State) : (busError s).limit = s.limit := rfl
@[simp] theorem busError_acc (s : State) : (busError s).acc = s.acc := rfl
@[simp] theorem busError_accBits (s : State) : (busError s).accBits = s.accBits := rfl
@[simp] theorem busError_ended (s : State) : (busError s).ended = s.ended := rfl
@[simp] theorem busError_flushed (s : State) : (busError s).flushed = s.flushed := rfl
@[simp] theorem busError_busFault (s : State) : (busError s).busFault = true := rfl
@[simp] theorem busError_responses (s : State) : (busError s).responses = s.responses ++ [.busError] := rfl
@[simp] theorem busError_pending (s : State) : (busError s).pending = s.pending := rfl

/-! resetElements: every element of 10_state.md R45, and nothing of the run -/

@[simp] theorem resetElements_arg0 (s : State) : (resetElements s).arg0 = State.reset.arg0 := rfl
@[simp] theorem resetElements_arg1 (s : State) : (resetElements s).arg1 = State.reset.arg1 := rfl
@[simp] theorem resetElements_arg2 (s : State) : (resetElements s).arg2 = State.reset.arg2 := rfl
@[simp] theorem resetElements_res0 (s : State) : (resetElements s).res0 = State.reset.res0 := rfl
@[simp] theorem resetElements_res1 (s : State) : (resetElements s).res1 = State.reset.res1 := rfl
@[simp] theorem resetElements_err (s : State) : (resetElements s).err = State.reset.err := rfl
@[simp] theorem resetElements_lastCode (s : State) : (resetElements s).lastCode = State.reset.lastCode := rfl
@[simp] theorem resetElements_firstErr (s : State) : (resetElements s).firstErr = State.reset.firstErr := rfl
@[simp] theorem resetElements_pbState (s : State) : (resetElements s).pbState = State.reset.pbState := rfl
@[simp] theorem resetElements_pcount (s : State) : (resetElements s).pcount = State.reset.pcount := rfl
@[simp] theorem resetElements_pal (s : State) : (resetElements s).pal = State.reset.pal := rfl
@[simp] theorem resetElements_iwidth (s : State) : (resetElements s).iwidth = State.reset.iwidth := rfl
@[simp] theorem resetElements_bpMode (s : State) : (resetElements s).bpMode = State.reset.bpMode := rfl
@[simp] theorem resetElements_w (s : State) : (resetElements s).w = State.reset.w := rfl
@[simp] theorem resetElements_n (s : State) : (resetElements s).n = State.reset.n := rfl
@[simp] theorem resetElements_vcount (s : State) : (resetElements s).vcount = State.reset.vcount := rfl
@[simp] theorem resetElements_bcount (s : State) : (resetElements s).bcount = State.reset.bcount := rfl
@[simp] theorem resetElements_bneed (s : State) : (resetElements s).bneed = State.reset.bneed := rfl
@[simp] theorem resetElements_limit (s : State) : (resetElements s).limit = State.reset.limit := rfl
@[simp] theorem resetElements_acc (s : State) : (resetElements s).acc = State.reset.acc := rfl
@[simp] theorem resetElements_accBits (s : State) : (resetElements s).accBits = State.reset.accBits := rfl
@[simp] theorem resetElements_ended (s : State) : (resetElements s).ended = State.reset.ended := rfl
@[simp] theorem resetElements_flushed (s : State) : (resetElements s).flushed = State.reset.flushed := rfl
@[simp] theorem resetElements_busFault (s : State) : (resetElements s).busFault = s.busFault := rfl
@[simp] theorem resetElements_responses (s : State) : (resetElements s).responses = s.responses := rfl
@[simp] theorem resetElements_pending (s : State) : (resetElements s).pending = s.pending := rfl

/-! stopStream: the gearbox, and nothing else (44_bit_packer.md R162) -/

@[simp] theorem stopStream_arg0 (s : State) : (stopStream s).arg0 = s.arg0 := rfl
@[simp] theorem stopStream_arg1 (s : State) : (stopStream s).arg1 = s.arg1 := rfl
@[simp] theorem stopStream_arg2 (s : State) : (stopStream s).arg2 = s.arg2 := rfl
@[simp] theorem stopStream_res0 (s : State) : (stopStream s).res0 = s.res0 := rfl
@[simp] theorem stopStream_res1 (s : State) : (stopStream s).res1 = s.res1 := rfl
@[simp] theorem stopStream_err (s : State) : (stopStream s).err = s.err := rfl
@[simp] theorem stopStream_lastCode (s : State) : (stopStream s).lastCode = s.lastCode := rfl
@[simp] theorem stopStream_firstErr (s : State) : (stopStream s).firstErr = s.firstErr := rfl
@[simp] theorem stopStream_pbState (s : State) : (stopStream s).pbState = s.pbState := rfl
@[simp] theorem stopStream_pcount (s : State) : (stopStream s).pcount = s.pcount := rfl
@[simp] theorem stopStream_pal (s : State) : (stopStream s).pal = s.pal := rfl
@[simp] theorem stopStream_iwidth (s : State) : (stopStream s).iwidth = s.iwidth := rfl
@[simp] theorem stopStream_bpMode (s : State) : (stopStream s).bpMode = State.reset.bpMode := rfl
@[simp] theorem stopStream_w (s : State) : (stopStream s).w = State.reset.w := rfl
@[simp] theorem stopStream_n (s : State) : (stopStream s).n = State.reset.n := rfl
@[simp] theorem stopStream_vcount (s : State) : (stopStream s).vcount = State.reset.vcount := rfl
@[simp] theorem stopStream_bcount (s : State) : (stopStream s).bcount = State.reset.bcount := rfl
@[simp] theorem stopStream_bneed (s : State) : (stopStream s).bneed = State.reset.bneed := rfl
@[simp] theorem stopStream_limit (s : State) : (stopStream s).limit = State.reset.limit := rfl
@[simp] theorem stopStream_acc (s : State) : (stopStream s).acc = State.reset.acc := rfl
@[simp] theorem stopStream_accBits (s : State) : (stopStream s).accBits = State.reset.accBits := rfl
@[simp] theorem stopStream_ended (s : State) : (stopStream s).ended = State.reset.ended := rfl
@[simp] theorem stopStream_flushed (s : State) : (stopStream s).flushed = State.reset.flushed := rfl
@[simp] theorem stopStream_busFault (s : State) : (stopStream s).busFault = s.busFault := rfl
@[simp] theorem stopStream_responses (s : State) : (stopStream s).responses = s.responses := rfl
@[simp] theorem stopStream_pending (s : State) : (stopStream s).pending = s.pending := rfl

/-! freshStream: the gearbox and the two results (44_bit_packer.md R151, R157) -/

@[simp] theorem freshStream_arg0 (m : BpMode) (w : BitVec 6) (n limit : Word) (s : State) :
    (freshStream m w n limit s).arg0 = s.arg0 := rfl
@[simp] theorem freshStream_arg1 (m : BpMode) (w : BitVec 6) (n limit : Word) (s : State) :
    (freshStream m w n limit s).arg1 = s.arg1 := rfl
@[simp] theorem freshStream_arg2 (m : BpMode) (w : BitVec 6) (n limit : Word) (s : State) :
    (freshStream m w n limit s).arg2 = s.arg2 := rfl
@[simp] theorem freshStream_res0 (m : BpMode) (w : BitVec 6) (n limit : Word) (s : State) :
    (freshStream m w n limit s).res0 = loWord (bytesNeeded n w) := rfl
@[simp] theorem freshStream_res1 (m : BpMode) (w : BitVec 6) (n limit : Word) (s : State) :
    (freshStream m w n limit s).res1 = hiWord (bytesNeeded n w) := rfl
@[simp] theorem freshStream_err (m : BpMode) (w : BitVec 6) (n limit : Word) (s : State) :
    (freshStream m w n limit s).err = s.err := rfl
@[simp] theorem freshStream_lastCode (m : BpMode) (w : BitVec 6) (n limit : Word) (s : State) :
    (freshStream m w n limit s).lastCode = s.lastCode := rfl
@[simp] theorem freshStream_firstErr (m : BpMode) (w : BitVec 6) (n limit : Word) (s : State) :
    (freshStream m w n limit s).firstErr = s.firstErr := rfl
@[simp] theorem freshStream_pbState (m : BpMode) (w : BitVec 6) (n limit : Word) (s : State) :
    (freshStream m w n limit s).pbState = s.pbState := rfl
@[simp] theorem freshStream_pcount (m : BpMode) (w : BitVec 6) (n limit : Word) (s : State) :
    (freshStream m w n limit s).pcount = s.pcount := rfl
@[simp] theorem freshStream_pal (m : BpMode) (w : BitVec 6) (n limit : Word) (s : State) :
    (freshStream m w n limit s).pal = s.pal := rfl
@[simp] theorem freshStream_iwidth (m : BpMode) (w : BitVec 6) (n limit : Word) (s : State) :
    (freshStream m w n limit s).iwidth = s.iwidth := rfl
@[simp] theorem freshStream_bpMode (m : BpMode) (w : BitVec 6) (n limit : Word) (s : State) :
    (freshStream m w n limit s).bpMode = m := rfl
@[simp] theorem freshStream_w (m : BpMode) (w : BitVec 6) (n limit : Word) (s : State) :
    (freshStream m w n limit s).w = w := rfl
@[simp] theorem freshStream_n (m : BpMode) (w : BitVec 6) (n limit : Word) (s : State) :
    (freshStream m w n limit s).n = n := rfl
@[simp] theorem freshStream_vcount (m : BpMode) (w : BitVec 6) (n limit : Word) (s : State) :
    (freshStream m w n limit s).vcount = State.reset.vcount := rfl
@[simp] theorem freshStream_bcount (m : BpMode) (w : BitVec 6) (n limit : Word) (s : State) :
    (freshStream m w n limit s).bcount = State.reset.bcount := rfl
@[simp] theorem freshStream_bneed (m : BpMode) (w : BitVec 6) (n limit : Word) (s : State) :
    (freshStream m w n limit s).bneed = bytesNeeded n w := rfl
@[simp] theorem freshStream_limit (m : BpMode) (w : BitVec 6) (n limit : Word) (s : State) :
    (freshStream m w n limit s).limit = limit := rfl
@[simp] theorem freshStream_acc (m : BpMode) (w : BitVec 6) (n limit : Word) (s : State) :
    (freshStream m w n limit s).acc = State.reset.acc := rfl
@[simp] theorem freshStream_accBits (m : BpMode) (w : BitVec 6) (n limit : Word) (s : State) :
    (freshStream m w n limit s).accBits = State.reset.accBits := rfl
@[simp] theorem freshStream_ended (m : BpMode) (w : BitVec 6) (n limit : Word) (s : State) :
    (freshStream m w n limit s).ended = State.reset.ended := rfl
@[simp] theorem freshStream_flushed (m : BpMode) (w : BitVec 6) (n limit : Word) (s : State) :
    (freshStream m w n limit s).flushed = State.reset.flushed := rfl
@[simp] theorem freshStream_busFault (m : BpMode) (w : BitVec 6) (n limit : Word) (s : State) :
    (freshStream m w n limit s).busFault = s.busFault := rfl
@[simp] theorem freshStream_responses (m : BpMode) (w : BitVec 6) (n limit : Word) (s : State) :
    (freshStream m w n limit s).responses = s.responses := rfl
@[simp] theorem freshStream_pending (m : BpMode) (w : BitVec 6) (n limit : Word) (s : State) :
    (freshStream m w n limit s).pending = s.pending := rfl

/-! How a command ends. -/

/-- A raise always answers a next state: the report. -/
@[simp] theorem raise_eq (c : StatusCode) (s : State) : raise c s = .next (report c s) := rfl

/-- A success always answers a next state. -/
@[simp] theorem succeed_eq (s : State) : succeed s = .next (success s) := rfl

end Sys2Proof.Machine
end

