-- ==== Sys2Proof/Laws/Exec.lean ====
section
/-! SUPPORT. What a command can answer. -/

namespace Sys2Proof.Machine

/-- Every command answers a next state: either nothing but a report of a code that is not OK, or a success
(30_encoding.md R81, 60_exceptions.md R203). -/
theorem exec_cases (i : Instr) (s : State) :
    ∃ t, exec i s = .next t ∧ ((∃ c, c ≠ .ok ∧ t = report c s) ∨ t.lastCode = .ok) := by
  cases i <;>
    simp only [exec, execNop, execClrerr, execReset, execCccCmp, execPbClear, execPbInsert, insertColour, execPbSeal,
      execPbLookup, execPbRead, execIwcCalc, execBpCfgPack, execBpPushValue, execBpPopByte, execBpFlush, execBpCfgUnpack,
      execBpPushByte, execBpPopValue, execBpEnd, execBpStop, raise_eq, succeed_eq] <;>
    (repeat' split) <;> refine ⟨_, rfl, ?_⟩ <;>
    first
    | exact .inr (success_lastCode _)
    | exact .inl ⟨_, by decide, rfl⟩

end Sys2Proof.Machine
end

