-- ==== Sys2Proof/Laws/Gearbox.lean ====
section
/-! SUPPORT. The gearbox's operations as exact arithmetic, and the stream integer they build up and take apart. -/

namespace Sys2Proof.Machine

/-- The width operand is the whole of ARG1, at most 32 (30_encoding.md R84). -/
theorem widthOperand_eq (a : Word) : widthOperand a = if a.toNat ≤ 32 then some (BitVec.ofNat 6 a.toNat) else none := rfl

/-- The byte operand is the whole of ARG0, at most 255 (30_encoding.md R84). -/
theorem byteOperand_eq (a : Word) : byteOperand a = if a.toNat < 256 then some (BitVec.ofNat 8 a.toNat) else none := by
  have h : a.extractLsb' 8 24 = 0#24 ↔ a.toNat < 256 := by
    rw [← BitVec.toNat_inj]
    have := a.isLt
    simp [Nat.shiftRight_eq_div_pow]
    omega
  unfold byteOperand
  simp only [h]
  split
  · congr 1
  · rfl

/-- A value below 2^w placed above a bits is below 2^m where a + w ≤ m. -/
theorem shifted_lt {v w a m : Nat} (hv : v < 2 ^ w) (h : a + w ≤ m) : v * 2 ^ a < 2 ^ m :=
  calc v * 2 ^ a < 2 ^ w * 2 ^ a := Nat.mul_lt_mul_of_pos_right hv (by positivity)
    _ = 2 ^ (a + w) := by rw [← pow_add, Nat.add_comm]
    _ ≤ 2 ^ m := Nat.pow_le_pow_right (by omega) h

/-- A value placed above the valid bits of ACC is added to it (44_bit_packer.md R152, R160). -/
theorem accIn_toNat {acc : BitVec 40} {bits : BitVec 6} {v : Word} (hc : acc.toNat < 2 ^ bits.toNat)
    (hv : v.toNat * 2 ^ bits.toNat < 2 ^ 40) : (accIn acc bits v).toNat = acc.toNat + v.toNat * 2 ^ bits.toNat := by
  have h : v.toNat % 2 ^ 40 = v.toNat := Nat.mod_eq_of_lt (lt_trans v.isLt (by decide))
  unfold accIn
  rw [BitVec.toNat_or, BitVec.toNat_shiftLeft, BitVec.toNat_setWidth, h, Nat.shiftLeft_eq, Nat.mod_eq_of_lt hv, Nat.or_comm,
    Nat.add_comm, ← Nat.shiftLeft_eq, Nat.shiftLeft_add_eq_or_of_lt hc]

/-- BNEED is exact: no product N*W of a legal width reaches 2^64 (10_state.md R39). -/
theorem bytesNeeded_toNat (n : Word) {w : BitVec 6} (h : w.toNat ≤ 32) :
    (bytesNeeded n w).toNat = (n.toNat * w.toNat + 7) / 8 := by
  have := Nat.mul_le_mul n.isLt.le h
  unfold bytesNeeded
  rw [BitVec.toNat_ofNat, Nat.mod_eq_of_lt (by omega)]

/-- The values of a stream lie below 2^(n*w) together (44_bit_packer.md R150). -/
theorem streamInt_lt (w : Nat) : ∀ vs : List Nat, (∀ v ∈ vs, v < 2 ^ w) → streamInt w vs < 2 ^ (vs.length * w)
  | [], _ => by simp [streamInt]
  | v :: vs, h => by
    have h1 := streamInt_lt w vs fun u hu => h u (by simp [hu])
    have h2 := h v (by simp)
    have h3 : 2 ^ w * (streamInt w vs + 1) ≤ 2 ^ w * 2 ^ (vs.length * w) := Nat.mul_le_mul_left _ h1
    rw [List.length_cons, Nat.add_mul, one_mul, Nat.add_comm, pow_add]
    simp only [streamInt]
    linarith [Nat.mul_add (2 ^ w) (streamInt w vs) 1]

/-- A value at the end of a stream stands above all the values before it (44_bit_packer.md R150). -/
theorem streamInt_append (w : Nat) (us vs : List Nat) :
    streamInt w (us ++ vs) = streamInt w us + 2 ^ (us.length * w) * streamInt w vs := by
  induction us with
  | nil => simp [streamInt]
  | cons u us ih =>
    rw [List.cons_append, streamInt, streamInt, ih, List.length_cons, Nat.add_mul, one_mul, pow_add]
    ring

end Sys2Proof.Machine
end

