-- ==== Sys2Proof/Laws/Palette.lean ====
section
/-! SUPPORT. What the palette memory's operations do: read after write, the shift of 42_palette_builder.md R122, and the
canonical form. -/

namespace Sys2Proof.Machine

/-- A pair list read at an index that none of its pairs has. -/
theorem palGet_of_not_listed {m : Palette} {i : Nat} (h : ∀ c ∈ m, c.1 ≠ i) : palGet m i = palUnlisted := by
  induction m with
  | nil => rfl
  | cons c rest ih =>
    have hc : i ≠ c.1 := fun e => h c (by simp) e.symm
    simp [palGet, hc, ih fun d hd => h d (by simp [hd])]

theorem palGet_append_of_not_listed {a b : Palette} {i : Nat} (h : ∀ c ∈ a, c.1 ≠ i) :
    palGet (a ++ b) i = palGet b i := by
  induction a with
  | nil => rfl
  | cons c rest ih =>
    have hc : i ≠ c.1 := fun e => h c (by simp) e.symm
    simp [palGet, hc, ih fun d hd => h d (by simp [hd])]

theorem palGet_append_right_unlisted {a b : Palette} {i : Nat} (h : ∀ c ∈ b, c.1 ≠ i) :
    palGet (a ++ b) i = palGet a i := by
  induction a with
  | nil => simpa [palGet] using palGet_of_not_listed h
  | cons c rest ih => by_cases hc : i = c.1 <;> simp [palGet, hc, ih]

/-- Keeping only pairs that include those of index i leaves entry i as it was. -/
theorem palGet_filter {m : Palette} {i : Nat} {f : Nat → Bool} (h : f i = true) :
    palGet (m.filter fun c => f c.1) i = palGet m i := by
  induction m with
  | nil => rfl
  | cons c rest ih =>
    by_cases hc : i = c.1
    · subst hc; simp [palGet, h]
    · by_cases hf : f c.1 = true <;> simp [palGet, hc, hf, ih]

/-- Read after write, same entry. -/
@[simp] theorem palGet_palSet_same (m : Palette) (i : Nat) (k : Key) : palGet (palSet m i k) i = k := by
  unfold palSet
  rw [palGet_append_right_unlisted, palGet_append_of_not_listed]
  · by_cases hk : k = palUnlisted <;> simp [palGet, hk]
  · intro c hc; simp only [List.mem_filter, decide_eq_true_eq] at hc; omega
  · intro c hc; simp only [List.mem_filter, decide_eq_true_eq] at hc; omega

/-- Read after write, another entry. -/
theorem palGet_palSet_ne (m : Palette) {i j : Nat} (k : Key) (h : j ≠ i) : palGet (palSet m i k) j = palGet m j := by
  have hmid : ∀ c ∈ (if k = palUnlisted then [] else [(i, k)]), c.1 ≠ j := by
    intro c hc; split at hc <;> simp at hc; subst hc; exact fun e => h e.symm
  unfold palSet
  rcases Nat.lt_or_gt_of_ne h with hlt | hgt
  · rw [palGet_append_right_unlisted, palGet_append_right_unlisted hmid]
    · exact palGet_filter (f := fun x => decide (x < i)) (by simpa using hlt)
    · intro c hc; simp only [List.mem_filter, decide_eq_true_eq] at hc; omega
  · rw [palGet_append_of_not_listed]
    · exact palGet_filter (f := fun x => decide (i < x)) (by simpa using hgt)
    · intro c hc
      rcases List.mem_append.1 hc with hc | hc
      · simp only [List.mem_filter, decide_eq_true_eq] at hc; omega
      · exact hmid c hc

theorem palGet_palSet (m : Palette) (i j : Nat) (k : Key) :
    palGet (palSet m i k) j = if j = i then k else palGet m j := by
  split
  · next h => subst h; simp
  · next h => exact palGet_palSet_ne m k h

/-- A write only lists its own entry and entries listed before. -/
theorem mem_palSet {m : Palette} {i : Nat} {k : Key} {c : Nat × Key} (h : c ∈ palSet m i k) : c = (i, k) ∨ c ∈ m := by
  unfold palSet at h
  rcases List.mem_append.1 h with h | h
  · rcases List.mem_append.1 h with h | h
    · exact .inr (List.mem_filter.1 h).1
    · split at h <;> simp at h; exact .inl h
  · exact .inr (List.mem_filter.1 h).1

/-- A write keeps the canonical form. -/
theorem palWf_palSet {m : Palette} (i : Nat) (k : Key) (h : palWf m = true) : palWf (palSet m i k) = true := by
  simp only [palWf, Bool.and_eq_true, decide_eq_true_eq, List.all_eq_true] at h ⊢
  obtain ⟨hp, hv⟩ := h
  refine ⟨?_, ?_⟩
  · unfold palSet
    rw [List.pairwise_append, List.pairwise_append]
    refine ⟨⟨hp.filter _, ?_, ?_⟩, hp.filter _, ?_⟩
    · split <;> simp
    · intro a ha b hb
      simp only [List.mem_filter, decide_eq_true_eq] at ha
      split at hb <;> simp at hb
      subst hb; exact ha.2
    · intro a ha b hb
      simp only [List.mem_filter, decide_eq_true_eq] at hb
      rcases List.mem_append.1 ha with ha | ha
      · simp only [List.mem_filter, decide_eq_true_eq] at ha; omega
      · split at ha <;> simp at ha
        subst ha; exact hb.2
  · intro c hc
    unfold palSet at hc
    rcases List.mem_append.1 hc with hc | hc
    · rcases List.mem_append.1 hc with hc | hc
      · exact hv c (List.mem_filter.1 hc).1
      · split at hc <;> simp at hc
        next hk => subst hc; exact hk
    · exact hv c (List.mem_filter.1 hc).1

/-- The shift loop: entries p + 1 to p + m take the entry below, all others stay. -/
theorem palGet_palShiftUp (p : Nat) (m : Nat) (pal : Palette) (j : Nat) :
    palGet (palShiftUp pal p m) j = if p < j ∧ j ≤ p + m then palGet pal (j - 1) else palGet pal j := by
  induction m generalizing pal with
  | zero => rw [palShiftUp, if_neg (by omega)]
  | succ m ih =>
    rw [palShiftUp, ih]
    by_cases h1 : p < j ∧ j ≤ p + m
    · rw [if_pos h1, if_pos (by omega), palGet_palSet_ne _ _ (by omega)]
    · rw [if_neg h1]
      by_cases h2 : j = p + m + 1
      · subst h2; simp [Nat.add_assoc]
      · rw [palGet_palSet_ne _ _ h2, if_neg (by omega)]

theorem palWf_palShiftUp (p m : Nat) {pal : Palette} (h : palWf pal = true) : palWf (palShiftUp pal p m) = true := by
  induction m generalizing pal with
  | zero => exact h
  | succ m ih => exact ih (palWf_palSet _ _ h)

theorem index_lt_of_mem_palShiftUp {p m n : Nat} {pal : Palette} (hn : p + m < n) (h : ∀ c ∈ pal, c.1 < n) :
    ∀ c ∈ palShiftUp pal p m, c.1 < n := by
  induction m generalizing pal with
  | zero => exact h
  | succ m ih =>
    refine ih (by omega) fun c hc => ?_
    rcases mem_palSet hc with rfl | hc
    · exact hn
    · exact h c hc

/-- The palette after an insertion at p: entries below p stay, PAL[p] is the new key, entries p to PCOUNT-1 stand one
higher, entries above stay (42_palette_builder.md R122). -/
theorem palGet_palInsertAt (s : State) {p : Nat} (k : Key) (hp : p ≤ s.pcount.toNat) (j : Nat) :
    palGet (palInsertAt s p k) j =
      if j = p then k else if p < j ∧ j ≤ s.pcount.toNat then palGet s.pal (j - 1) else palGet s.pal j := by
  unfold palInsertAt
  rw [palGet_palSet, palGet_palShiftUp, show p + (s.pcount.toNat - p) = s.pcount.toNat by omega]

theorem palWf_palInsertAt (s : State) (p : Nat) (k : Key) (h : palWf s.pal = true) : palWf (palInsertAt s p k) = true :=
  palWf_palSet _ _ (palWf_palShiftUp _ _ h)

/-- An insertion lists only entries that exist, when the palette is not full. -/
theorem index_lt_of_mem_palInsertAt {s : State} {p n : Nat} {k : Key} (hp : p ≤ s.pcount.toNat) (hn : s.pcount.toNat < n)
    (h : ∀ c ∈ s.pal, c.1 < n) : ∀ c ∈ palInsertAt s p k, c.1 < n := by
  intro c hc
  rcases mem_palSet hc with rfl | hc
  · exact Nat.lt_of_le_of_lt hp hn
  · exact index_lt_of_mem_palShiftUp (by omega) h c hc

theorem length_palEntries (s : State) : (palEntries s).length = s.pcount.toNat := by simp [palEntries]

theorem lowerBound_le (s : State) (k : Key) : lowerBound s k ≤ s.pcount.toNat :=
  length_palEntries s ▸ List.countP_le_length

/-- The palette memory of reset is in canonical form. -/
theorem palWf_reset : palWf State.reset.pal = true := rfl

end Sys2Proof.Machine
end

