-- ==== Sys2Proof/Laws/PerInstr.lean ====
section
/-! SUPPORT. Statements about every command as syntax, one lemma per constructor. -/

namespace Sys2Proof

/-- The unit a command belongs to, as the high nibble of OP (30_encoding.md R82). -/
def unitNibble : Instr → Nat
  | .nop | .clrerr | .reset => 0
  | .cccCmp => 1
  | .pbClear | .pbInsert | .pbSeal | .pbLookup | .pbRead => 2
  | .iwcCalc => 3
  | .bpCfgPack | .bpPushValue | .bpPopByte | .bpFlush => 4
  | .bpCfgUnpack | .bpPushByte | .bpPopValue | .bpEnd | .bpStop => 4

end Sys2Proof

namespace Sys2Proof.Laws.CommandWord

/-- A command is well formed, its word has RSV zero and the unit's number in the high nibble of OP, and the word's OP is
the command's opcode (30_encoding.md R80, R82). -/
def Statement (i : Instr) : Prop :=
  i.wellFormed = true ∧ rsvField (encode i) = 0#24 ∧ opField (encode i) = opcode i ∧
    (encode i).toNat / 16 = unitNibble i

theorem nop : Statement .nop := ⟨rfl, rfl, rfl, rfl⟩
theorem clrerr : Statement .clrerr := ⟨rfl, rfl, rfl, rfl⟩
theorem reset : Statement .reset := ⟨rfl, rfl, rfl, rfl⟩
theorem cccCmp : Statement .cccCmp := ⟨rfl, rfl, rfl, rfl⟩
theorem pbClear : Statement .pbClear := ⟨rfl, rfl, rfl, rfl⟩
theorem pbInsert : Statement .pbInsert := ⟨rfl, rfl, rfl, rfl⟩
theorem pbSeal : Statement .pbSeal := ⟨rfl, rfl, rfl, rfl⟩
theorem pbLookup : Statement .pbLookup := ⟨rfl, rfl, rfl, rfl⟩
theorem pbRead : Statement .pbRead := ⟨rfl, rfl, rfl, rfl⟩
theorem iwcCalc : Statement .iwcCalc := ⟨rfl, rfl, rfl, rfl⟩
theorem bpCfgPack : Statement .bpCfgPack := ⟨rfl, rfl, rfl, rfl⟩
theorem bpPushValue : Statement .bpPushValue := ⟨rfl, rfl, rfl, rfl⟩
theorem bpPopByte : Statement .bpPopByte := ⟨rfl, rfl, rfl, rfl⟩
theorem bpFlush : Statement .bpFlush := ⟨rfl, rfl, rfl, rfl⟩
theorem bpCfgUnpack : Statement .bpCfgUnpack := ⟨rfl, rfl, rfl, rfl⟩
theorem bpPushByte : Statement .bpPushByte := ⟨rfl, rfl, rfl, rfl⟩
theorem bpPopValue : Statement .bpPopValue := ⟨rfl, rfl, rfl, rfl⟩
theorem bpEnd : Statement .bpEnd := ⟨rfl, rfl, rfl, rfl⟩
theorem bpStop : Statement .bpStop := ⟨rfl, rfl, rfl, rfl⟩

end Sys2Proof.Laws.CommandWord
end

