-- ==== Sys2Proof/Laws/Port.lean ====
section
/-! SUPPORT. What the port and one step can do. -/

namespace Sys2Proof.Machine

/-- The port performs exactly the accesses a host may make (20_memory.md R62, 70_reset_and_hazards.md R241). -/
theorem performs_iff (size : Nat) (off : Offset) : performs size off = true ↔ size = 4 ∧ off.toNat % 4 = 0 := by
  have h : off.extractLsb' 0 2 = 0#2 ↔ off.toNat % 4 = 0 := by
    rw [← BitVec.toNat_inj]; simp
  simp [performs, h]

theorem performs_read (size : Nat) (off : Offset) : performs size off = (HostEvent.read size off).wellFormed := by
  rw [Bool.eq_iff_iff, performs_iff]; simp [HostEvent.wellFormed]

theorem performs_write (size : Nat) (off : Offset) (v : Word) :
    performs size off = (HostEvent.write size off v).wellFormed := performs_read size off

/-- Each named register is found at its own offset (10_state.md R21). -/
@[simp] theorem regAt_regOffset (r : PortReg) : regAt (regOffset r) = some r := by cases r <;> rfl

/-- A register is found at an offset only when it is its own (no two registers share one). -/
theorem regAt_eq_some {off : Offset} {r : PortReg} (h : regAt off = some r) : regOffset r = off := by
  simpa using List.find?_some h

/-- No command is decoded: the word raises E_ILLEGAL_CMD (30_encoding.md R83). -/
theorem command_illegal {cw : Word} {e : DecodeError} (h : decode cw = .error e) (s : State) :
    command cw s = .next (report .eIllegalCmd s) := by simp [command, h]

theorem command_legal {cw : Word} {i : Instr} (h : decode cw = .ok i) (s : State) : command cw s = exec i s := by
  simp [command, h]

/-- Everything one step can do: nothing to do, a read answered, a write performed (a command, an ARG register, or nothing),
a bus error, or the reset input. -/
theorem step_cases (s : State) :
    (s.pending = [] ∧ step s = .next s) ∨
    (∃ size off rest, s.pending = .read size off :: rest ∧ performs size off = true ∧
      step s = .next (answer (.data (portRead off s)) { s with pending := rest })) ∨
    (∃ size off v rest, s.pending = .write size off v :: rest ∧ performs size off = true ∧
      step s = portWrite off v (answer .done { s with pending := rest })) ∨
    (∃ e rest, s.pending = e :: rest ∧ e.wellFormed = false ∧ step s = .next (busError { s with pending := rest })) ∨
    (∃ rest, s.pending = .hwReset :: rest ∧ step s = .next (resetElements { s with pending := rest })) := by
  have hread : ∀ off rest, portRead off { s with pending := rest } = portRead off s := by
    intro off rest; unfold portRead; split <;> [skip; rfl]
    next r _ => cases r <;> rfl
  match hp : s.pending with
  | [] => exact .inl ⟨rfl, by simp [step, hp]⟩
  | .read size off :: rest =>
    cases hf : performs size off with
    | true => exact .inr (.inl ⟨size, off, rest, rfl, hf, by simp [step, hp, hostEvent, hf, hread]⟩)
    | false =>
      exact .inr (.inr (.inr (.inl ⟨_, rest, rfl, performs_read size off ▸ hf, by simp [step, hp, hostEvent, hf]⟩)))
  | .write size off v :: rest =>
    cases hf : performs size off with
    | true => exact .inr (.inr (.inl ⟨size, off, v, rest, rfl, hf, by simp [step, hp, hostEvent, hf]⟩))
    | false =>
      exact .inr (.inr (.inr (.inl ⟨_, rest, rfl, performs_write size off v ▸ hf, by simp [step, hp, hostEvent, hf]⟩)))
  | .hwReset :: rest => exact .inr (.inr (.inr (.inr ⟨rest, rfl, by simp [step, hp, hostEvent]⟩)))

end Sys2Proof.Machine
end

