-- ==== Sys2Proof/Tests/Slice0.lean ====
section
/-! SUPPORT. Tests of the model on values of spec/95_test_vectors.md (named in each test by that file's own numbers), the
smoke tests of well-formedness, and for each statement with hypotheses a witness that meets them. -/

namespace Sys2Proof.Tests

open Sys2Proof Sys2Proof.Machine

/-! Sample states -/

/-- The command ends with the code c and the state meets p. -/
def endsWith (r : Result) (c : StatusCode) (p : State → Bool) : Bool :=
  match r with
  | .next t => decide (t.lastCode = c) && p t
  | .fault _ => false
  | .refused _ => false

/-- BUILDING with PAL = [0x0000FF, 0xFF0000] (B15). -/
def building2 : State :=
  { State.reset with pbState := .building, pcount := 2#25, pal := [(0, 0x0000FF#24), (1, 0xFF0000#24)] }

/-- SEALED with PAL = [0x0000FF, 0x00FF00, 0xFF0000] (program P2, line 13). -/
def sealed3 : State :=
  { State.reset with
    pbState := .sealed, pcount := 3#25, iwidth := 2#5, pal := [(0, 0x0000FF#24), (1, 0x00FF00#24), (2, 0xFF0000#24)] }

/-- SEALED with PAL = [0x336699] (program P4, line 8). -/
def sealed1 : State := { State.reset with pbState := .sealed, pcount := 1#25, pal := [(0, 0x336699#24)] }

/-- BUILDING with no entry, right after PB_CLEAR. -/
def building0 : State := { State.reset with pbState := .building }

/-- PACK at w = 3 after [5, 3] of three values. -/
def pack2of3 : State :=
  { State.reset with
    bpMode := .pack, w := 3#6, n := 3#32, vcount := 2#32, bneed := 2#64, acc := 0x1D#40, accBits := 6#6, arg0 := 6#32 }

/-- PACK at w = 3 after [5, 3, 6] (K29). -/
def pack3of3 : State := { pack2of3 with vcount := 3#32, acc := 0x19D#40, accBits := 9#6 }

/-- K29 with its one byte popped (K30), ready to flush. -/
def packReady : State := { pack3of3 with acc := 1#40, accBits := 1#6, bcount := 1#64 }

/-- PACK at w = 32 after one of three values (K25). -/
def packHeld : State :=
  { State.reset with
    bpMode := .pack, w := 32#6, n := 3#32, vcount := 1#32, bneed := 12#64, acc := 0xFFFFFFFF#40, accBits := 32#6
    arg0 := 0xFFFFFFFF#32 }

/-- UNPACK at w = 3, limit 7, after the byte 0x9D (U15). -/
def unpack1 : State :=
  { State.reset with
    bpMode := .unpack, w := 3#6, n := 3#32, bcount := 1#64, bneed := 2#64, limit := 7#32, acc := 0x9D#40, accBits := 8#6
    arg0 := 1#32 }

/-- UNPACK at w = 3 after two of three values, short of one bit (program P3, line 14). -/
def unpackShort : State := { unpack1 with vcount := 2#32, acc := 2#40, accBits := 2#6 }

/-- UNPACK at w = 3 with both bytes pushed and two values read (program P3, line 17). -/
def unpackFull : State := { unpack1 with vcount := 2#32, bcount := 2#64, acc := 6#40, accBits := 10#6 }

/-- UNPACK at w = 32 after five bytes (U5). -/
def unpackHeld : State :=
  { State.reset with
    bpMode := .unpack, w := 32#6, n := 10#32, bcount := 5#64, bneed := 40#64, acc := 0x0504030201#40, accBits := 40#6
    arg0 := 6#32 }

/-- A run about to take the event e. -/
def facing (e : HostEvent) (s : State) : State := { s with pending := [e] }

/-! Well-formedness (20_memory.md R62, 30_encoding.md R80) -/

theorem test_wf_commands : ∀ i : Instr, i.wellFormed = true := by intro i; cases i <;> rfl

theorem test_wf_accepts_word : (HostEvent.read 4 0xFC#8).wellFormed = true := by decide

theorem test_wf_refuses_halfword : (HostEvent.read 2 0x08#8).wellFormed = false := by decide

theorem test_wf_refuses_byte_write : (HostEvent.write 1 0x08#8 5#32).wellFormed = false := by decide

theorem test_wf_refuses_misaligned : (HostEvent.read 4 0x02#8).wellFormed = false := by decide

theorem test_wf_refuses_misaligned_write : (HostEvent.write 4 0x07#8 5#32).wellFormed = false := by decide

/-! Decoding, from the encoding lines of the commands' rules: RSV = 24 zero bits, then OP -/

theorem test_decode_control : decode 0b000000000000000000000000_00000001#32 = .ok .clrerr := by decide

theorem test_decode_comparator : decode 0b000000000000000000000000_00010000#32 = .ok .cccCmp := by decide

theorem test_decode_palette : decode 0b000000000000000000000000_00100011#32 = .ok .pbLookup := by decide

theorem test_decode_index_width : decode 0b000000000000000000000000_00110000#32 = .ok .iwcCalc := by decide

theorem test_decode_pack : decode 0b000000000000000000000000_01000011#32 = .ok .bpFlush := by decide

theorem test_decode_unpack : decode 0b000000000000000000000000_01001111#32 = .ok .bpStop := by decide

/-- E1: a reserved bit makes BP_PUSH_VALUE's word illegal. -/
theorem test_decode_reserved_bit : decode 0x00000141#32 = .error .reservedBits := by decide

theorem test_decode_reserved_opcode : decode 0x00000003#32 = .error .reservedOpcode := by decide

theorem test_table_word : decodeTableWord 32 0x4A = some .bpPopValue := by decide

/-! Commands and the port -/

/-- X6: NOP clears LASTCODE and keeps the sticky report. -/
theorem test_nop : endsWith (exec .nop { State.reset with err := true, lastCode := .eIllegalCmd, firstErr := .eIllegalCmd })
    .ok (fun t => statusWord t = 0x06000001#32) = true := by decide

/-- X7 -/
theorem test_clrerr : endsWith (exec .clrerr { State.reset with err := true, firstErr := .eIllegalCmd })
    .ok (fun t => statusWord t = 0#32) = true := by decide

/-- X8 -/
theorem test_reset : endsWith (exec .reset { pack2of3 with pbState := .building })
    .ok (fun t => statusWord t = 0#32 && t.arg0 = 0#32) = true := by decide

/-- X4 -/
theorem test_illegal_command : endsWith (command 0x03#32 State.reset)
    .eIllegalCmd (fun t => statusWord t = 0x06060001#32) = true := by decide

/-- X2: a write to a read-only offset is ignored. -/
theorem test_write_status : endsWith (step (facing (.write 4 0x1C#8 0xFFFFFFFF#32) State.reset))
    .ok (fun t => statusWord t = 0#32 && decide (t.responses = [.done])) = true := by decide

/-- X9 -/
theorem test_bus_error : endsWith (step (facing (.read 4 0x02#8) State.reset))
    .ok (fun t => decide (t.responses = [.busError]) && t.busFault) = true := by decide

/-- Right after reset the machine runs the command that withFetchWord places. -/
theorem test_fetch : endsWith (step (State.reset.withFetchWord 32 0x20))
    .ok (fun t => decide (t.pbState = .building)) = true := by decide

/-- C5: red is the most significant channel. -/
theorem test_cmp_red : endsWith (exec .cccCmp { State.reset with arg0 := 0x0000FFFF#32, arg1 := 0x00010000#32 })
    .ok (fun t => t.res0 = 1#32 && t.res1 = 0x0000FFFF#32) = true := by decide

/-- C9: the alpha byte is no part of the key. -/
theorem test_cmp_alpha : endsWith (exec .cccCmp { State.reset with arg0 := 0xFF000001#32 })
    .ok (fun t => t.res0 = 4#32 && t.res1 = 1#32) = true := by decide

/-- B13: PB_CLEAR from SEALED keeps the sticky report. -/
theorem test_pb_clear : endsWith (exec .pbClear { sealed3 with err := true, lastCode := .eBadState, firstErr := .eBadState })
    .ok (fun t => statusWord t = 0x07000041#32 && t.pcount = 0#25 && t.iwidth = 0#5) = true := by decide

/-- B15: a new colour between two others, PAL_CAP being 2^24. -/
theorem test_pb_insert_between : endsWith (insertColour (2 ^ 24) { building2 with arg0 := 0x0000FF00#32 })
    .ok (fun t => t.res0 = 1#32 && t.res1 = 0#32 && decide (palEntries t = [0x0000FF#24, 0x00FF00#24, 0xFF0000#24])) = true := by
  decide

/-- Program P5, line 11: a new colour in a full palette. -/
theorem test_pb_insert_full : endsWith (insertColour 2 { building2 with arg0 := 7#32 })
    .ePaletteOverflow (fun t => statusWord t = 0x05050041#32 && t.pcount = 2#25) = true := by decide

/-- Program P2, lines 11 to 13. -/
theorem test_pb_seal : endsWith (exec .pbSeal { sealed3 with pbState := .building, iwidth := 0#5 })
    .ok (fun t => t.res0 = 3#32 && t.res1 = 2#32 && t.iwidth = 2#5) = true := by decide

/-- B5 -/
theorem test_pb_seal_empty : endsWith (exec .pbSeal building0)
    .eInvalidInput (fun t => statusWord t = 0x01010041#32) = true := by decide

/-- Program P2, line 34. -/
theorem test_pb_lookup : endsWith (exec .pbLookup { sealed3 with arg0 := 0x00FF0000#32 })
    .ok (fun t => t.res0 = 2#32) = true := by decide

/-- As B9's last lookup: a colour that is not in the palette. -/
theorem test_pb_lookup_absent : endsWith (exec .pbLookup { sealed3 with arg0 := 0x00123456#32, res0 := 9#32 })
    .eNotFound (fun t => t.res0 = 9#32) = true := by decide

/-- Program P2, line 21. -/
theorem test_pb_read : endsWith (exec .pbRead { sealed3 with arg0 := 2#32 })
    .ok (fun t => t.res0 = 0x00FF0000#32) = true := by decide

/-- As B10's third read: the index PCOUNT. -/
theorem test_pb_read_past_end : endsWith (exec .pbRead { sealed3 with arg0 := 3#32 })
    .eIndexOutOfRange (fun t => t.res0 = 0#32) = true := by decide

/-- The table of section 2.4, n = 257. -/
theorem test_iwc_257 : endsWith (exec .iwcCalc { State.reset with arg0 := 257#32 })
    .ok (fun t => t.res0 = 9#32) = true := by decide

/-- The table of section 2.4, n = 2^24 + 1. -/
theorem test_iwc_too_big : endsWith (exec .iwcCalc { State.reset with arg0 := 0x01000001#32 })
    .eInvalidPaletteSize (fun t => t.res0 = 0#32) = true := by decide

/-- K18: BNEED is exact beyond 32 bits. -/
theorem test_cfg_pack_wide : endsWith (exec .bpCfgPack { State.reset with arg0 := 0xFFFFFFFF#32, arg1 := 32#32 })
    .ok (fun t => t.res0 = 0xFFFFFFFC#32 && t.res1 = 3#32) = true := by decide

/-- K17 -/
theorem test_cfg_pack_33 : endsWith (exec .bpCfgPack { State.reset with arg0 := 5#32, arg1 := 33#32 })
    .eBadOperand (fun t => statusWord t = 0x08080001#32) = true := by decide

/-- K29: the third push. -/
theorem test_push_value : endsWith (exec .bpPushValue pack2of3)
    .ok (fun t => t.acc = 0x19D#40 && t.accBits = 9#6) = true := by decide

/-- K25 -/
theorem test_push_value_held : endsWith (exec .bpPushValue packHeld)
    .eOverrun (fun t => statusWord t = 0x000B8104#32) = true := by decide

/-- K30 -/
theorem test_pop_byte : endsWith (exec .bpPopByte pack3of3)
    .ok (fun t => t.res0 = 0x9D#32 && t.acc = 1#40 && t.accBits = 1#6) = true := by decide

/-- As K21: a hold leaves ERR clear. -/
theorem test_pop_byte_short : endsWith (exec .bpPopByte packReady)
    .eUnderrun (fun t => !t.err && t.accBits = 1#6) = true := by decide

/-- K1's last byte: the flush makes it whole. -/
theorem test_flush : endsWith (exec .bpFlush packReady)
    .ok (fun t => t.accBits = 8#6 && t.acc = 1#40 && t.flushed) = true := by decide

/-- As K20: BP_FLUSH before the last value. -/
theorem test_flush_early : endsWith (exec .bpFlush pack2of3) .eCount (fun t => !t.flushed) = true := by decide

/-- U12 -/
theorem test_cfg_unpack : endsWith (exec .bpCfgUnpack { State.reset with arg1 := 5#32 })
    .ok (fun t => statusWord t = 0x00000202#32) = true := by decide

/-- U5: the fifth byte fills the gearbox. -/
theorem test_push_byte : endsWith (exec .bpPushByte { unpackHeld with bcount := 4#64, acc := 0x04030201#40, accBits := 32#6, arg0 := 5#32 })
    .ok (fun t => t.acc = 0x0504030201#40 && t.accBits = 40#6) = true := by decide

/-- U6 -/
theorem test_push_byte_held : endsWith (exec .bpPushByte unpackHeld)
    .eOverrun (fun t => statusWord t = 0x000BA220#32) = true := by decide

/-- U15 -/
theorem test_pop_value : endsWith (exec .bpPopValue unpack1)
    .ok (fun t => t.res0 = 5#32 && t.acc = 0x13#40 && t.accBits = 5#6) = true := by decide

/-- U8: a value at the bound is refused and kept. -/
theorem test_pop_value_bound : endsWith (exec .bpPopValue { unpack1 with w := 2#6, limit := 3#32, acc := 0x0F#40 })
    .eIndexOutOfRange (fun t => t.acc = 0x0F#40 && t.accBits = 8#6 && t.vcount = 0#32) = true := by decide

/-- U13: BP_END. -/
theorem test_end : endsWith (exec .bpEnd { State.reset with bpMode := .unpack, w := 8#6, n := 1#32, bneed := 1#64 })
    .ok (fun t => statusWord t = 0x00000208#32) = true := by decide

/-- U14: BP_STOP keeps the error report. -/
theorem test_stop : endsWith (exec .bpStop { unpackShort with err := true, lastCode := .eTruncatedData, firstErr := .eBadState })
    .ok (fun t => statusWord t = 0x07000001#32) = true := by decide

/-- K5: the functions of R150 on one stream of the table. -/
theorem test_pack_function : packBytes 12 [0xABC, 0x123] = [0xBC, 0x3A, 0x12] := by decide

/-- S9 and U1 -/
theorem test_unpack_function : unpackValues 2 4 [0x48] = some [0, 2, 0, 1] := by decide

/-! Witnesses: for each statement with hypotheses, states and operands that meet them, clause by clause, at the ends of the
ranges the clauses cut. -/

/-! The invariant holds of states of every mode -/

theorem gear_pack2of3 : GearInv pack2of3 := by constructor <;> simp [pack2of3, State.reset]

theorem gear_pack3of3 : GearInv pack3of3 := by constructor <;> simp [pack3of3, pack2of3, State.reset]

/-- PACK at w = 8 with its only byte popped: N*W is a multiple of 8. -/
theorem gear_packWhole :
    GearInv { State.reset with bpMode := .pack, w := 8#6, n := 1#32, vcount := 1#32, bcount := 1#64, bneed := 1#64 } := by
  constructor <;> simp [State.reset]

/-- PACK at w = 1 before the first of eight values. -/
theorem gear_packBits : GearInv { State.reset with bpMode := .pack, w := 1#6, n := 8#32, bneed := 1#64 } := by
  constructor <;> simp [State.reset]

theorem gear_packReady : GearInv packReady := by constructor <;> simp [packReady, pack3of3, pack2of3, State.reset]

theorem gear_packHeld : GearInv packHeld := by constructor <;> simp [packHeld, State.reset]

theorem gear_packFlushed : GearInv { packReady with accBits := 8#6, flushed := true } := by
  constructor <;> simp [packReady, pack3of3, pack2of3, State.reset]

theorem gear_unpack1 : GearInv unpack1 := by constructor <;> simp [unpack1, State.reset]

theorem gear_unpackShort : GearInv unpackShort := by constructor <;> simp [unpackShort, unpack1, State.reset]

theorem gear_unpackFull : GearInv unpackFull := by constructor <;> simp [unpackFull, unpack1, State.reset]

theorem gear_unpackHeld : GearInv unpackHeld := by constructor <;> simp [unpackHeld, State.reset]

theorem gear_sealed1 : GearInv sealed1 := by constructor <;> simp [sealed1, State.reset]

/-- The palette of one entry: it meets the invariant in every build, PAL_CAP being at least 1. -/
theorem witness_invariant (p : List HostEvent) : MachineInv { sealed1 with pending := p } where
  palette := by
    have h := Config.palCap_pos
    constructor <;> simp [sealed1, State.reset, palWf, palUnlisted, palEntries, indexWidth, bitlen, List.range_succ]
    · exact h
    · exact h
  gear := by constructor <;> simp [sealed1, State.reset]
  report := by constructor <;> simp [sealed1, State.reset, codeClass]
  run := by constructor; simp [sealed1, State.reset]

theorem witness_invariant_pack : MachineInv pack2of3 where
  palette := by constructor <;> simp [pack2of3, State.reset, palWf, palEntries]
  gear := gear_pack2of3
  report := by constructor <;> simp [pack2of3, State.reset, codeClass]
  run := by constructor; simp [pack2of3, State.reset]

theorem witness_invariant_unpack : MachineInv unpack1 where
  palette := by constructor <;> simp [unpack1, State.reset, palWf, palEntries]
  gear := gear_unpack1
  report := by constructor <;> simp [unpack1, State.reset, codeClass]
  run := by constructor; simp [unpack1, State.reset]

/-- StepKeepsInvariant and PaletteStaysAscending: a state with the invariant, about to read its entry 0. -/
theorem witness_StepKeepsInvariant :
    MachineInv (facing (.write 4 0x04#8 0x24#32) sealed1) ∧
    ∃ t, step (facing (.write 4 0x04#8 0x24#32) sealed1) = .next t ∧ t.res0 = 0x00336699#32 := ⟨witness_invariant _, _, rfl, rfl⟩

/-- StreamCountersMoveByOne: each clause's commands, with states whose gearbox meets the invariant. -/
theorem witness_StreamCountersMoveByOne :
    (∃ t, GearInv pack2of3 ∧ exec .bpPushValue pack2of3 = .next t ∧ t.lastCode = .ok) ∧
    (∃ t, GearInv unpack1 ∧ exec .bpPushByte unpack1 = .next t ∧ t.lastCode = .ok) ∧
    (∃ t, GearInv sealed1 ∧ exec .bpCfgPack sealed1 = .next t ∧ t.lastCode = .ok) ∧
    (∃ t, GearInv sealed1 ∧ exec .nop sealed1 = .next t) :=
  ⟨⟨_, gear_pack2of3, rfl, rfl⟩, ⟨_, gear_unpack1, rfl, rfl⟩, ⟨_, gear_sealed1, rfl, rfl⟩, ⟨_, gear_sealed1, rfl⟩⟩

/-! Encoding and the port -/

/-- IllegalCommandWords: the ends of every reserved range, and of RSV. -/
theorem witness_IllegalCommandWords :
    ∀ cw ∈ [0x03#32, 0x0F#32, 0x11#32, 0x1F#32, 0x25#32, 0x2F#32, 0x31#32, 0x3F#32, 0x44#32, 0x47#32, 0x4C#32, 0x4E#32,
      0x50#32, 0xFF#32, 0x100#32, 0x80000000#32, 0xFFFFFFFF#32], ∃ e, decode cw = .error e := by
  intro cw h
  simp only [List.mem_cons, List.not_mem_nil, or_false] at h
  rcases h with rfl | rfl | rfl | rfl | rfl | rfl | rfl | rfl | rfl | rfl | rfl | rfl | rfl | rfl | rfl | rfl | rfl <;>
    exact ⟨_, rfl⟩

/-- StepRunsDecodedCommand: no event, a command, an illegal word. -/
theorem witness_StepRunsDecodedCommand :
    State.reset.pending = [] ∧
    ((facing (.write 4 0x04#8 0x20#32) State.reset).pending = .write 4 0x04#8 0x20#32 :: [] ∧ decode 0x20#32 = .ok .pbClear) ∧
    ((facing (.write 4 0x04#8 0x03#32) State.reset).pending = .write 4 0x04#8 0x03#32 :: [] ∧
      decode 0x03#32 = .error .reservedOpcode) := ⟨rfl, ⟨rfl, rfl⟩, rfl, rfl⟩

/-- HostAccessesTouchOnlyTheirRegister: a read, a write beside CMD, a write to CMD. -/
theorem witness_HostAccessesTouchOnlyTheirRegister :
    (∃ t, step (facing (.read 4 0x1C#8) sealed3) = .next t) ∧
    (∃ t, step (facing (.write 4 0x00#8 7#32) sealed3) = .next t) ∧
    (∃ t, step (facing (.write 4 0x08#8 7#32) sealed3) = .next t) ∧
    (∃ t, step (facing (.write 4 0x04#8 0x20#32) sealed3) = .next t) := ⟨⟨_, rfl⟩, ⟨_, rfl⟩, ⟨_, rfl⟩, ⟨_, rfl⟩⟩

/-- ArgRegistersStoreEveryBit: the six accesses, and a step that is neither a write of an ARG register nor a reset. -/
theorem witness_ArgRegistersStoreEveryBit :
    (∀ off ∈ [0x08#8, 0x0C#8, 0x10#8], (facing (.write 4 off 0xDEADBEEF#32) State.reset).pending = .write 4 off 0xDEADBEEF#32 :: [] ∧
      (facing (.read 4 off) State.reset).pending = .read 4 off :: []) ∧
    (∃ t, step (facing (.write 4 0x04#8 0x10#32) State.reset) = .next t) ∧
    (∀ off v rest, off = 0x08#8 ∨ off = 0x0C#8 ∨ off = 0x10#8 →
      (facing (.write 4 0x04#8 0x10#32) State.reset).pending ≠ .write 4 off v :: rest) ∧
    (∀ cw rest, (facing (.write 4 0x04#8 0x10#32) State.reset).pending = .write 4 0x04#8 cw :: rest → decode cw ≠ .ok .reset) ∧
    (∀ rest, (facing (.write 4 0x04#8 0x10#32) State.reset).pending ≠ .hwReset :: rest) := by
  refine ⟨fun _ _ => ⟨rfl, rfl⟩, ⟨_, rfl⟩, ?_, ?_, ?_⟩
  · rintro off v rest (rfl | rfl | rfl) h <;> cases h
  · intro cw rest h
    cases h
    decide
  · intro rest h
    cases h

/-- RegisterMapContents: reads at both ends of the map, of a reserved offset, and of STATUS. -/
theorem witness_RegisterMapContents :
    ∀ off ∈ [0x00#8, 0x1C#8, 0x50#8, 0x54#8, 0xFC#8], off.toNat % 4 = 0 ∧ (facing (.read 4 off) sealed3).pending = .read 4 off :: [] := by
  decide

/-- Program P2, line 12 with the ID register beside it: a read is answered with the content of its offset. -/
theorem test_read_answers :
    endsWith (step (facing (.read 4 0x14#8) { sealed3 with res0 := 3#32 })) .ok (fun t => decide (t.responses = [.data 3#32])) = true ∧
    endsWith (step (facing (.read 4 0x00#8) sealed3)) .ok (fun t => decide (t.responses = [.data 0x50414C31#32])) = true := by decide

/-- ReservedAndReadOnlyOffsets: ID and BP_ACC_HI, the read-only registers at the ends of the map, the first and last reserved
offsets, and CMD. -/
theorem witness_ReservedAndReadOnlyOffsets :
    (∀ off ∈ [0x00#8, 0x14#8, 0x50#8, 0x54#8, 0xFC#8],
      off.toNat % 4 = 0 ∧ off ≠ 0x04#8 ∧ off ≠ 0x08#8 ∧ off ≠ 0x0C#8 ∧ off ≠ 0x10#8 ∧
      (facing (.write 4 off 5#32) State.reset).pending = .write 4 off 5#32 :: []) ∧
    (∀ off ∈ [0x54#8, 0xFC#8, 0x04#8],
      off.toNat % 4 = 0 ∧ (0x54 ≤ off.toNat ∨ off = 0x04#8) ∧ (facing (.read 4 off) State.reset).pending = .read 4 off :: []) := by
  decide

/-- RefusedAccessesOnlyRecordABusFault: sizes about 4, and each misalignment. -/
theorem witness_RefusedAccessesOnlyRecordABusFault :
    (∀ size ∈ [0, 1, 2, 3, 5, 8], size ≠ 4 ∨ (0x08#8).toNat % 4 ≠ 0) ∧
    (∀ off ∈ [0x01#8, 0x02#8, 0x03#8, 0xFF#8], 4 ≠ 4 ∨ off.toNat % 4 ≠ 0) ∧
    (facing (.read 2 0x08#8) State.reset).pending = .read 2 0x08#8 :: [] ∧
    (facing (.write 4 0x05#8 1#32) State.reset).pending = .write 4 0x05#8 1#32 :: [] := by decide

/-- BusFaultBitIsNeverCleared: a refused access, and the reset input after one. -/
theorem witness_BusFaultBitIsNeverCleared :
    (∃ t, step (facing (.read 2 0x08#8) State.reset) = .next t ∧ t.busFault = true) ∧
    (∃ t, step (facing .hwReset { State.reset with busFault := true }) = .next t) := ⟨⟨_, rfl, rfl⟩, _, rfl⟩

/-! Codes, reports and units -/

/-- FailedCommandsAreAllOrNothing: an error first and after another one, and a hold. -/
theorem witness_FailedCommandsAreAllOrNothing :
    (∃ t, command 0x03#32 State.reset = .next t ∧ t.lastCode ≠ .ok ∧ codeClass t.lastCode = .error) ∧
    (∃ t, command 0x43#32 { pack2of3 with err := true, firstErr := .eBadState } = .next t ∧ t.lastCode ≠ .ok ∧
      codeClass t.lastCode = .error) ∧
    (∃ t, command 0x41#32 packHeld = .next t ∧ t.lastCode ≠ .ok ∧ codeClass t.lastCode ≠ .error) :=
  ⟨⟨_, rfl, by decide, by decide⟩, ⟨_, rfl, by decide, by decide⟩, ⟨_, rfl, by decide, by decide⟩⟩

/-- StickyErrorReport: CLRERR, RESET, an error, a success, the reset input, and a read. -/
theorem witness_StickyErrorReport :
    (∃ t, step (facing (.write 4 0x04#8 0x01#32) State.reset) = .next t ∧ decode 0x01#32 = .ok .clrerr) ∧
    (∃ t, step (facing (.write 4 0x04#8 0x02#32) State.reset) = .next t ∧ decode 0x02#32 = .ok .reset) ∧
    (∃ t, step (facing (.write 4 0x04#8 0x22#32) building0) = .next t ∧ decode 0x22#32 = .ok .pbSeal ∧
      codeClass t.lastCode = .error) ∧
    (∃ t, step (facing (.write 4 0x04#8 0x10#32) State.reset) = .next t ∧ decode 0x10#32 = .ok .cccCmp ∧
      codeClass t.lastCode ≠ .error) ∧
    (∃ t, step (facing .hwReset packHeld) = .next t) ∧
    (∃ t, step (facing (.read 4 0x1C#8) packHeld) = .next t) :=
  ⟨⟨_, rfl, rfl⟩, ⟨_, rfl, rfl⟩, ⟨_, rfl, rfl, by decide⟩, ⟨_, rfl, rfl, by decide⟩, ⟨_, rfl⟩, ⟨_, rfl⟩⟩

/-- ResultRegisterWriters: commands that change RES0 and RES1. -/
theorem witness_ResultRegisterWriters :
    (∃ t, exec .bpPopByte pack3of3 = .next t ∧ t.res0 ≠ pack3of3.res0) ∧
    (∃ t, exec .cccCmp { State.reset with arg0 := 5#32 } = .next t ∧ t.res1 ≠ State.reset.res1) :=
  ⟨⟨_, rfl, by decide⟩, ⟨_, rfl, by decide⟩⟩

/-- UnitsDoNotDisturbEachOther: a command of each side. -/
theorem witness_UnitsDoNotDisturbEachOther :
    (∃ t, exec .bpPushValue pack2of3 = .next t ∧ Instr.bpPushValue ∉ [Instr.reset, .pbClear, .pbInsert, .pbSeal]) ∧
    (∃ t, exec .pbClear pack2of3 = .next t) := ⟨⟨_, rfl, by decide⟩, ⟨_, rfl⟩⟩

/-- PaletteStateTransitions: the palette commands that succeed, one that fails, and RESET. -/
theorem witness_PaletteStateTransitions :
    (∃ t, exec .pbClear sealed3 = .next t) ∧
    (∃ t, exec .pbInsert { building2 with arg0 := 0xFF#32 } = .next t ∧ t.lastCode = .ok) ∧
    (∃ t, exec .pbSeal building2 = .next t ∧ t.lastCode = .ok) ∧
    (∃ t, exec .pbLookup { sealed3 with arg0 := 0xFF#32 } = .next t ∧ t.lastCode = .ok) ∧
    (∃ t, exec .pbRead sealed3 = .next t ∧ t.lastCode = .ok) ∧
    (∃ t, exec .reset sealed3 = .next t) ∧
    (∃ t, exec .pbSeal building0 = .next t ∧ t.lastCode ≠ .ok) :=
  ⟨⟨_, rfl⟩, ⟨_, rfl, rfl⟩, ⟨_, rfl, rfl⟩, ⟨_, rfl, rfl⟩, ⟨_, rfl, rfl⟩, ⟨_, rfl⟩, ⟨_, rfl, by decide⟩⟩

/-- PaletteCommandAcceptance: an accepted and a refused state of each command, and a command of another unit. -/
theorem witness_PaletteCommandAcceptance :
    (∃ t, exec .pbInsert sealed3 = .next t ∧ t.lastCode = .eBadState) ∧
    (∃ t, exec .pbSeal State.reset = .next t ∧ t.lastCode = .eBadState) ∧
    (∃ t, exec .pbLookup building2 = .next t ∧ t.lastCode = .eBadState) ∧
    (∃ t, exec .pbRead building2 = .next t ∧ t.lastCode = .eBadState) ∧
    (∃ t, exec .iwcCalc building2 = .next t ∧ Instr.iwcCalc ∉ [Instr.reset, .pbClear, .pbInsert, .pbSeal, .pbLookup, .pbRead]) :=
  ⟨⟨_, rfl, rfl⟩, ⟨_, rfl, rfl⟩, ⟨_, rfl, rfl⟩, ⟨_, rfl, rfl⟩, ⟨_, rfl, by decide⟩⟩

/-- GearboxModeTransitions: the commands that change the mode, and one that fails. -/
theorem witness_GearboxModeTransitions :
    (∃ t, exec .bpCfgPack unpack1 = .next t ∧ t.lastCode = .ok) ∧
    (∃ t, exec .bpCfgUnpack pack2of3 = .next t ∧ t.lastCode = .ok) ∧
    (∃ t, exec .bpStop pack2of3 = .next t) ∧
    (∃ t, exec .bpCfgPack { pack2of3 with arg1 := 33#32 } = .next t ∧ t.lastCode ≠ .ok) :=
  ⟨⟨_, rfl, rfl⟩, ⟨_, rfl, rfl⟩, ⟨_, rfl⟩, ⟨_, rfl, by decide⟩⟩

/-- K25 cured: four pops, and the push held at 32 bits succeeds. -/
theorem test_cure_overrun :
    (cureWhile (exec .bpPushValue) (fun _ => exec .bpPopByte) 4 packHeld).accBits = 0#6 ∧
    endsWith (exec .bpPushValue (cureWhile (exec .bpPushValue) (fun _ => exec .bpPopByte) 4 packHeld)) .ok (fun _ => true) = true := by
  decide

/-- HoldRepeats and HoldsHaveCures: the commands that hold, BP_POP_BYTE with a value missing and with none missing. -/
theorem witness_HoldsHaveCures :
    (∃ t, GearInv packHeld ∧ exec .bpPushValue packHeld = .next t ∧ t.lastCode = .eOverrun ∧ codeClass t.lastCode = .hold) ∧
    (∃ t, GearInv pack3of3 ∧ exec .bpFlush pack3of3 = .next t ∧ t.lastCode = .eOverrun ∧ codeClass t.lastCode = .hold) ∧
    (∃ t, GearInv unpackHeld ∧ exec .bpPushByte unpackHeld = .next t ∧ t.lastCode = .eOverrun) ∧
    (∃ t, GearInv unpackShort ∧ exec .bpPopValue unpackShort = .next t ∧ t.lastCode = .eUnderrun ∧ (255#32).toNat < 256) ∧
    (∃ t, GearInv pack2of3 ∧ exec .bpPopByte pack2of3 = .next t ∧ t.lastCode = .eUnderrun ∧ t.vcount ≠ t.n ∧
      (7#32).toNat < 2 ^ t.w.toNat) ∧
    (∃ t, GearInv packReady ∧ exec .bpPopByte packReady = .next t ∧ t.lastCode = .eUnderrun ∧ t.vcount = t.n ∧
      0 < t.accBits.toNat) ∧
    (∃ t, exec .bpPopByte { State.reset with bpMode := .pack, w := 1#6, n := 8#32, bneed := 1#64 } = .next t ∧
      t.lastCode = .eUnderrun ∧ 1 ≤ t.w.toNat ∧ t.vcount.toNat + 8 ≤ t.n.toNat ∧ (1#32).toNat < 2 ^ t.w.toNat) :=
  ⟨⟨_, gear_packHeld, rfl, rfl, rfl⟩, ⟨_, gear_pack3of3, rfl, rfl, rfl⟩, ⟨_, gear_unpackHeld, rfl, rfl⟩, ⟨_, gear_unpackShort, rfl, rfl, by decide⟩,
    ⟨_, gear_pack2of3, rfl, rfl, by decide, by decide⟩, ⟨_, gear_packReady, rfl, rfl, by decide, by decide⟩,
    ⟨_, rfl, rfl, by decide, by decide, by decide⟩⟩

/-! Colours and the palette -/

/-- AlphaIsIgnored: other alpha bytes. -/
theorem witness_AlphaIsIgnored :
    Instr.pbLookup ∈ [Instr.cccCmp, .pbInsert, .pbLookup] ∧
    (0xFF0000FF#32).toNat % 2 ^ 24 = { sealed3 with arg0 := 0xFF#32 }.arg0.toNat % 2 ^ 24 ∧
    (0x01000000#32).toNat % 2 ^ 24 = sealed3.arg1.toNat % 2 ^ 24 := by decide

/-- CompareColours: its keys are defined for all operands, such as the equal and the extreme ones. -/
theorem witness_CompareColours :
    0xFFFFFF = (colourKey (colourOf 0xFFFFFFFF#32)).toNat ∧ 0 = (colourKey (colourOf 0xFF000000#32)).toNat := by decide

theorem ascending_building2 : (palEntries building2).Pairwise (· < ·) := by decide

theorem ascending_sealed3 : (palEntries sealed3).Pairwise (· < ·) := by decide

/-- LowerBoundIsTheSortedPosition: positions at both ends and between. -/
theorem witness_LowerBoundIsTheSortedPosition :
    (palEntries building2).Pairwise (· < ·) ∧ 0 ≤ building2.pcount.toNat ∧ 2 ≤ building2.pcount.toNat ∧
    lowerBound building2 0#24 = 0 ∧ lowerBound building2 0x00FF00#24 = 1 ∧ lowerBound building2 0xFFFFFF#24 = 2 := by decide

/-- InsertColour: not BUILDING; present at the first and the last entry; a new colour while full; a new colour that fits.
PAL_CAP is not known, so the full palette has a count equal to it and the fitting one is empty. -/
theorem witness_InsertColour :
    sealed3.pbState ≠ .building ∧
    (building2.pbState = .building ∧ (palEntries building2).Pairwise (· < ·) ∧
      0 < building2.pcount.toNat ∧ palGet building2.pal 0 = 0x0000FF#24 ∧
      1 < building2.pcount.toNat ∧ palGet building2.pal 1 = 0xFF0000#24) ∧
    (∃ s : State, s.pbState = .building ∧ (∀ i, i < s.pcount.toNat → palGet s.pal i ≠ 1#24) ∧
      s.pcount.toNat = Config.palCap) ∧
    (building0.pbState = .building ∧ (∀ i, i < building0.pcount.toNat → palGet building0.pal i ≠ 0#24) ∧
      building0.pcount.toNat < Config.palCap ∧ palWf building0.pal = true) := by
  have h1 := Config.palCap_pos
  have h2 := Config.palCap_le
  refine ⟨by decide, by decide, ⟨{ building0 with pcount := BitVec.ofNat 25 Config.palCap }, rfl, ?_, ?_⟩, rfl, ?_, h1, rfl⟩
  · intro i _; exact (by decide : (0#24 : Key) ≠ 1#24)
  · exact (BitVec.toNat_ofNat _ _).trans (Nat.mod_eq_of_lt (by omega))
  · intro i hi; exact absurd hi (Nat.not_lt_zero i)

theorem witness_FullCapacityNeverOverflows :
    (palEntries building2).Pairwise (· < ·) ∧ building2.pcount.toNat ≤ 2 ^ 24 ∧ ∃ t, insertColour (2 ^ 24) building2 = .next t :=
  ⟨by decide, by decide, _, rfl⟩

/-- The first insertion after PB_CLEAR fits in every build. -/
theorem insertAll_one (c : Word) : ∃ t, insertAll [c] (success building0) = some t := by
  have h : ¬ Config.palCap = 0 := by have := Config.palCap_pos; omega
  simp [insertAll, exec, execPbInsert, insertColour, palPresent, success, building0, State.reset, okState, h]

/-- InsertionSortsTheColourSet: PB_CLEAR and an insertion that succeeds; no more distinct colours than PAL_CAP; an
insertion that overflows. -/
theorem witness_InsertionSortsTheColourSet :
    (∃ s0 t, exec .pbClear State.reset = .next s0 ∧ insertAll [5#32] s0 = some t) ∧
    ((([5#32, 5#32] : List Word).map fun c => colourKey (colourOf c)).dedup.length ≤ Config.palCap) ∧
    (∃ s t : State, (palEntries s).Pairwise (· < ·) ∧ insertColour 2 s = .next t ∧ t.lastCode = .ePaletteOverflow) := by
  refine ⟨?_, ?_, { building2 with arg0 := 7#32 }, _, by decide, rfl, rfl⟩
  · obtain ⟨t, h⟩ := insertAll_one 5#32
    exact ⟨_, t, rfl, h⟩
  · have := Config.palCap_pos
    exact le_trans (by decide) this

/-- PaletteDependsOnlyOnTheSet: one colour once, after reset and after another palette. -/
theorem witness_PaletteDependsOnlyOnTheSet :
    (∀ c : Word, c ∈ [5#32] ↔ c ∈ [5#32]) ∧
    ∃ s0 t u, exec .pbClear State.reset = .next s0 ∧ insertAll [5#32] s0 = some t ∧ exec .pbSeal t = .next u := by
  obtain ⟨t, h⟩ := insertAll_one 5#32
  obtain ⟨u, hu, -⟩ := exec_cases .pbSeal t
  exact ⟨fun _ => Iff.rfl, _, t, u, rfl, h, hu⟩

/-- SealPalette: not BUILDING, empty, and one entry, which every build can hold. -/
theorem witness_SealPalette :
    State.reset.pbState ≠ .building ∧ (building0.pbState = .building ∧ building0.pcount.toNat = 0) ∧
    ({ sealed1 with pbState := .building }.pbState = .building ∧ 0 < { sealed1 with pbState := .building }.pcount.toNat ∧
      { sealed1 with pbState := .building }.pcount.toNat ≤ Config.palCap) :=
  ⟨by decide, by decide, rfl, by decide, Config.palCap_pos⟩

/-- LookupColour: not SEALED, an absent colour, and the first and last entries. -/
theorem witness_LookupColour :
    building2.pbState ≠ .sealed ∧
    (sealed3.pbState = .sealed ∧ ∀ i, i < sealed3.pcount.toNat → palGet sealed3.pal i ≠ colourKey (colourOf 0x123456#32)) ∧
    (sealed3.pbState = .sealed ∧ (palEntries sealed3).Pairwise (· < ·) ∧
      0 < sealed3.pcount.toNat ∧ palGet sealed3.pal 0 = colourKey (colourOf 0xFF#32) ∧
      2 < sealed3.pcount.toNat ∧ palGet sealed3.pal 2 = colourKey (colourOf 0xFF0000#32)) := by
  refine ⟨by decide, ⟨rfl, ?_⟩, by decide⟩
  intro i hi
  have : i < 3 := hi
  interval_cases i <;> decide

/-- ReadPaletteEntry: not SEALED, the index PCOUNT and the index PCOUNT - 1. -/
theorem witness_ReadPaletteEntry :
    building2.pbState ≠ .sealed ∧
    (sealed3.pbState = .sealed ∧ sealed3.pcount.toNat ≤ { sealed3 with arg0 := 3#32 }.arg0.toNat) ∧
    (sealed3.pbState = .sealed ∧ { sealed3 with arg0 := 2#32 }.arg0.toNat < sealed3.pcount.toNat) := by decide

/-- CanonicalKey and KeyOrder: ordered colours that differ in one channel each. -/
theorem witness_KeyOrder :
    colourKey ⟨0#8, 255#8, 255#8⟩ < colourKey ⟨1#8, 0#8, 0#8⟩ ∧ colourKey ⟨1#8, 0#8, 0#8⟩ < colourKey ⟨1#8, 0#8, 1#8⟩ := by decide

/-- IndexWidthIsLeast and CalculateIndexWidth: 0 and 2^24 + 1 are refused; 1, 2^24 and 257 have a width. -/
theorem witness_CalculateIndexWidth :
    ((0#32).toNat = 0 ∨ 2 ^ 24 < (0#32).toNat) ∧ ((0x01000001#32).toNat = 0 ∨ 2 ^ 24 < (0x01000001#32).toNat) ∧
    (1 ≤ (1#32).toNat ∧ (1#32).toNat ≤ 2 ^ 24 ∧ (1#32).toNat ≤ 2 ^ 0 ∧ ∀ v, v < 0 → 2 ^ v < (1#32).toNat) ∧
    (1 ≤ (257#32).toNat ∧ (257#32).toNat ≤ 2 ^ 9 ∧ ∀ v, v < 9 → 2 ^ v < (257#32).toNat) ∧
    (1 ≤ (0x01000000#32).toNat ∧ (0x01000000#32).toNat ≤ 2 ^ 24 ∧ ∀ v, v < 24 → 2 ^ v < (0x01000000#32).toNat) := by
  decide

/-! The gearbox -/

/-- ConfigurePack and ConfigureUnpack: the widths 32 and 33, with their byte counts. -/
theorem witness_ConfigurePack :
    (20 = ((5#32).toNat * (32#32).toNat + 7) / 8 ∧ (32#32).toNat ≤ 32) ∧
    (21 = ((5#32).toNat * (33#32).toNat + 7) / 8 ∧ 32 < (33#32).toNat) := by decide

/-- PushValue: each check at the first value it refuses, and a push that passes them all. -/
theorem witness_PushValue :
    unpack1.bpMode ≠ .pack ∧
    (pack2of3.bpMode = .pack ∧ 2 ^ pack2of3.w.toNat ≤ { pack2of3 with arg0 := 8#32 }.arg0.toNat) ∧
    (pack3of3.bpMode = .pack ∧ { pack3of3 with arg0 := 7#32 }.arg0.toNat < 2 ^ pack3of3.w.toNat ∧ pack3of3.vcount = pack3of3.n) ∧
    (packHeld.bpMode = .pack ∧ packHeld.arg0.toNat < 2 ^ packHeld.w.toNat ∧ packHeld.vcount ≠ packHeld.n ∧
      8 ≤ packHeld.accBits.toNat) ∧
    (pack2of3.bpMode = .pack ∧ pack2of3.arg0.toNat < 2 ^ pack2of3.w.toNat ∧ pack2of3.vcount ≠ pack2of3.n ∧
      pack2of3.accBits.toNat < 8 ∧ GearInv pack2of3) :=
  ⟨by decide, by decide, by decide, by decide, by decide, by decide, by decide, by decide, gear_pack2of3⟩

/-- PopByte: OFF, 7 bits and 8 bits. -/
theorem witness_PopByte :
    State.reset.bpMode ≠ .pack ∧
    ({ pack2of3 with accBits := 7#6 }.bpMode = .pack ∧ { pack2of3 with accBits := 7#6 }.accBits.toNat < 8) ∧
    ({ pack2of3 with accBits := 8#6 }.bpMode = .pack ∧ 8 ≤ { pack2of3 with accBits := 8#6 }.accBits.toNat) := by decide

/-- FlushStream: OFF, a value missing, 8 bits waiting, none waiting, 1 bit waiting, and N*W a multiple of 8. -/
theorem witness_FlushStream :
    State.reset.bpMode ≠ .pack ∧ (pack2of3.bpMode = .pack ∧ pack2of3.vcount ≠ pack2of3.n) ∧
    (pack3of3.bpMode = .pack ∧ pack3of3.vcount = pack3of3.n ∧ 8 ≤ pack3of3.accBits.toNat) ∧
    ({ pack3of3 with accBits := 0#6 }.bpMode = .pack ∧ { pack3of3 with accBits := 0#6 }.vcount = pack3of3.n ∧
      { pack3of3 with accBits := 0#6 }.accBits.toNat = 0) ∧
    (packReady.bpMode = .pack ∧ packReady.vcount = packReady.n ∧ packReady.accBits.toNat < 8 ∧ 0 < packReady.accBits.toNat ∧
      GearInv packReady) ∧
    ∃ s : State, GearInv s ∧ s.bpMode = .pack ∧ s.vcount = s.n ∧ s.accBits.toNat < 8 ∧ s.n.toNat * s.w.toNat % 8 = 0 :=
  ⟨by decide, by decide, by decide, by decide, ⟨by decide, by decide, by decide, by decide, gear_packReady⟩,
    _, gear_packWhole, by decide⟩

/-- PushByte: PACK, ended, 256, all bytes pushed, 33 bits, and a push at 32 bits. -/
theorem witness_PushByte :
    (pack2of3.bpMode ≠ .unpack ∨ pack2of3.ended = true) ∧
    ({ unpack1 with ended := true }.bpMode ≠ .unpack ∨ { unpack1 with ended := true }.ended = true) ∧
    (unpack1.bpMode = .unpack ∧ unpack1.ended = false ∧ 256 ≤ { unpack1 with arg0 := 256#32 }.arg0.toNat) ∧
    (unpackFull.bpMode = .unpack ∧ unpackFull.ended = false ∧ unpackFull.arg0.toNat < 256 ∧ unpackFull.bcount = unpackFull.bneed) ∧
    (unpackHeld.bpMode = .unpack ∧ unpackHeld.ended = false ∧ unpackHeld.arg0.toNat < 256 ∧
      unpackHeld.bcount ≠ unpackHeld.bneed ∧ 32 < unpackHeld.accBits.toNat) ∧
    (unpack1.bpMode = .unpack ∧ unpack1.ended = false ∧ unpack1.arg0.toNat < 256 ∧ unpack1.bcount ≠ unpack1.bneed ∧
      unpack1.accBits.toNat ≤ 32 ∧ GearInv unpack1) :=
  ⟨by decide, by decide, by decide, by decide, by decide, by decide, by decide, by decide, by decide, by decide, gear_unpack1⟩

/-- PopValue: OFF, all values read, short and ended, short, the bound and the value below it. -/
theorem witness_PopValue :
    State.reset.bpMode ≠ .unpack ∧
    ({ unpack1 with vcount := 3#32 }.bpMode = .unpack ∧ { unpack1 with vcount := 3#32 }.vcount = unpack1.n) ∧
    (unpackShort.bpMode = .unpack ∧ unpackShort.vcount ≠ unpackShort.n ∧ unpackShort.accBits.toNat < unpackShort.w.toNat ∧
      { unpackShort with ended := true }.ended = true ∧ unpackShort.ended = false) ∧
    (5 = unpack1.acc.toNat % 2 ^ unpack1.w.toNat ∧ unpack1.bpMode = .unpack ∧ unpack1.vcount ≠ unpack1.n ∧
      unpack1.w.toNat ≤ unpack1.accBits.toNat ∧ unpack1.w.toNat ≤ 32 ∧
      { unpack1 with limit := 5#32 }.limit.toNat ≠ 0 ∧ { unpack1 with limit := 5#32 }.limit.toNat ≤ 5 ∧
      ({ unpack1 with limit := 6#32 }.limit.toNat = 0 ∨ 5 < { unpack1 with limit := 6#32 }.limit.toNat)) := by decide

theorem witness_EndAndStop : State.reset.bpMode ≠ .unpack ∧ unpack1.bpMode = .unpack := by decide

/-- PackedBitOrder: values of the width, the last bit of the last value, and the first padding bit. -/
theorem witness_PackedBitOrder :
    (∀ v ∈ [5, 3, 6], v < 2 ^ 3) ∧ 2 < [5, 3, 6].length ∧ 2 < 3 ∧ [5, 3, 6].length * 3 ≤ 9 := by decide

/-- PackRefinesStream: the stream of K29 before its third push, popped once and before the flush. -/
theorem witness_PackRefinesStream :
    (GearInv pack2of3 ∧ pack2of3.bpMode = .pack ∧ [5, 3].length = pack2of3.vcount.toNat ∧
      (∀ v ∈ [5, 3], v < 2 ^ pack2of3.w.toNat) ∧ pack2of3.acc.toNat = streamInt pack2of3.w.toNat [5, 3] / 2 ^ (8 * pack2of3.bcount.toNat)) ∧
    (GearInv packReady ∧ packReady.bpMode = .pack ∧ [5, 3, 6].length = packReady.vcount.toNat ∧
      (∀ v ∈ [5, 3, 6], v < 2 ^ packReady.w.toNat) ∧
      packReady.acc.toNat = streamInt packReady.w.toNat [5, 3, 6] / 2 ^ (8 * packReady.bcount.toNat)) ∧
    (∃ t, exec .bpPushValue pack2of3 = .next t ∧ t.lastCode = .ok) ∧ (∃ t, exec .bpPopByte pack3of3 = .next t ∧ t.lastCode = .ok) ∧
    (∃ t, exec .bpFlush packReady = .next t ∧ t.lastCode = .ok) :=
  ⟨⟨gear_pack2of3, by decide⟩, ⟨gear_packReady, by decide⟩, ⟨_, rfl, rfl⟩, ⟨_, rfl, rfl⟩, ⟨_, rfl, rfl⟩⟩

/-- UnpackRefinesStream: the bytes of program P3. -/
theorem witness_UnpackRefinesStream :
    (GearInv unpack1 ∧ unpack1.bpMode = .unpack ∧ [0x9D].length = unpack1.bcount.toNat ∧ (∀ u ∈ [0x9D], u < 256) ∧
      unpack1.acc.toNat = streamInt 8 [0x9D] / 2 ^ (unpack1.vcount.toNat * unpack1.w.toNat)) ∧
    (GearInv unpackFull ∧ unpackFull.bpMode = .unpack ∧ [0x9D, 1].length = unpackFull.bcount.toNat ∧
      unpackFull.acc.toNat = streamInt 8 [0x9D, 1] / 2 ^ (unpackFull.vcount.toNat * unpackFull.w.toNat)) ∧
    (∃ t, exec .bpPushByte unpack1 = .next t ∧ t.lastCode = .ok) ∧ (∃ t, exec .bpPopValue unpackFull = .next t ∧ t.lastCode = .ok) :=
  ⟨⟨gear_unpack1, by decide⟩, ⟨gear_unpackFull, by decide⟩, ⟨_, rfl, rfl⟩, ⟨_, rfl, rfl⟩⟩

/-- PackLaw, RoundTrip and UnpackContract: the widths 0 and 32, at their greatest values, and no value at all. -/
theorem witness_PackLaw :
    ((32#32).toNat ≤ 32 ∧ [0xFFFFFFFF#32, 1#32].length < 2 ^ 32 ∧ ∀ v ∈ [0xFFFFFFFF#32, 1#32], v.toNat < 2 ^ (32#32).toNat) ∧
    ((0#32).toNat ≤ 32 ∧ [0#32].length < 2 ^ 32 ∧ ∀ v ∈ [0#32], v.toNat < 2 ^ (0#32).toNat) ∧
    ((3#32).toNat * (3#32).toNat ≤ 8 * [0x9D#8, 0x01#8].length) ∧ ((4#32).toNat * (0#32).toNat ≤ 8 * ([] : List Byte).length) := by
  simp

/-- FullStreamNeverRunsShort: all bytes pushed, and the input ended with a value short and with a value whole. -/
theorem witness_FullStreamNeverRunsShort :
    (∃ t, GearInv unpackFull ∧ unpackFull.bpMode = .unpack ∧ exec .bpPopValue unpackFull = .next t ∧
      unpackFull.bcount = unpackFull.bneed ∧ unpackFull.vcount.toNat < unpackFull.n.toNat) ∧
    (∃ t, GearInv { unpackShort with ended := true } ∧ exec .bpPopValue { unpackShort with ended := true } = .next t ∧
      t.lastCode = .eTruncatedData) :=
  ⟨⟨_, gear_unpackFull, by decide, rfl, by decide⟩, ⟨_, by constructor <;> simp [unpackShort, unpack1, State.reset], rfl, rfl⟩⟩

end Sys2Proof.Tests
end

section
/-! Colour words (00_scope.md R12): the channels as numbers, and the colour word as the sum of its channels. -/

namespace Sys2Proof.Proofs

open Sys2Proof.Machine

@[simp] theorem colourOf_r_toNat (c : Word) : (colourOf c).r.toNat = c.toNat / 2 ^ 16 % 256 := by
  simp [colourOf, Nat.shiftRight_eq_div_pow]

@[simp] theorem colourOf_g_toNat (c : Word) : (colourOf c).g.toNat = c.toNat / 2 ^ 8 % 256 := by
  simp [colourOf, Nat.shiftRight_eq_div_pow]

@[simp] theorem colourOf_b_toNat (c : Word) : (colourOf c).b.toNat = c.toNat % 256 := by
  simp [colourOf]

/-- Two colours are equal when their channels are equal as numbers. -/
theorem colour_eq_of_toNat_eq {c d : Colour} (hr : c.r.toNat = d.r.toNat) (hg : c.g.toNat = d.g.toNat)
    (hb : c.b.toNat = d.b.toNat) : c = d := by
  obtain ⟨r, g, b⟩ := c
  obtain ⟨r', g', b'⟩ := d
  obtain rfl : r = r' := BitVec.eq_of_toNat_eq hr
  obtain rfl : g = g' := BitVec.eq_of_toNat_eq hg
  obtain rfl : b = b' := BitVec.eq_of_toNat_eq hb
  rfl

/-- Three channels of 8 bits fill bits 23:0 of the word. -/
theorem channelSum_lt (c : Colour) : c.r.toNat * 2 ^ 16 + c.g.toNat * 2 ^ 8 + c.b.toNat < 2 ^ 24 := by
  have hr := c.r.isLt
  have hg := c.g.isLt
  have hb := c.b.isLt
  omega

/-- The sum of the channels fits in 24 bits, so the colour word holds all of it. -/
theorem colourWord_toNat (c : Colour) :
    (colourWord c).toNat = c.r.toNat * 2 ^ 16 + c.g.toNat * 2 ^ 8 + c.b.toNat := by
  rw [colourWord, BitVec.toNat_ofNat]
  exact Nat.mod_eq_of_lt ((channelSum_lt c).trans (by decide))

theorem colourWord_toNat_lt (c : Colour) : (colourWord c).toNat < 2 ^ 24 :=
  colourWord_toNat c ▸ channelSum_lt c

/-- word() then color() is the identity: each channel is a base 256 digit of the colour word. -/
@[simp] theorem colourOf_colourWord (c : Colour) : colourOf (colourWord c) = c := by
  have hr := c.r.isLt
  have hg := c.g.isLt
  have hb := c.b.isLt
  apply colour_eq_of_toNat_eq
  · rw [colourOf_r_toNat, colourWord_toNat]; omega
  · rw [colourOf_g_toNat, colourWord_toNat]; omega
  · rw [colourOf_b_toNat, colourWord_toNat]; omega

/-- Settles O27: the channels are bits 23:16, 15:8 and 7:0, and the colour word is their sum, below 2^24. -/
theorem colourWordChannels : Obligations.ColourWordChannels :=
  ⟨fun c => ⟨colourOf_r_toNat c, colourOf_g_toNat c, colourOf_b_toNat c⟩,
    fun c => ⟨colourOf_colourWord c, colourWord_toNat_lt c⟩⟩

end Sys2Proof.Proofs
end

section
/-! What a command does: the state it is accepted in, the elements it writes where it succeeds, and the inversion of exec
that the statements about all commands rest on (30_encoding.md R81, R82; 60_exceptions.md R200, R203). -/

namespace Sys2Proof.Proofs

open Sys2Proof.Machine

/-- The states in which a command does not raise E_BAD_STATE (42_palette_builder.md R127; 44_bit_packer.md R152 to R161). -/
def Accepts : Instr → State → Prop
  | .pbInsert, s | .pbSeal, s => s.pbState = .building
  | .pbLookup, s | .pbRead, s => s.pbState = .sealed
  | .bpPushValue, s | .bpPopByte, s | .bpFlush, s => s.bpMode = .pack
  | .bpEnd, s | .bpPopValue, s => s.bpMode = .unpack
  | .bpPushByte, s => s.bpMode = .unpack ∧ s.ended = false
  | _, _ => True

/-- What a command that succeeds writes beside LASTCODE, with the checks it has passed: one constructor for each
successful end a command's rule gives. -/
inductive Effect (s : State) : Instr → State → Prop
  | nop : Effect s .nop s
  | clrerr : Effect s .clrerr { s with err := false, firstErr := .ok }
  | reset : Effect s .reset (resetElements s)
  | cccCmp : Effect s .cccCmp
      { s with
        res0 := orderCode (keyOperand s.arg0) (keyOperand s.arg1)
        res1 := (keyOperand s.arg0).setWidth 32 }
  | pbClear : Effect s .pbClear { s with pbState := .building, pcount := 0#25, iwidth := 0#5 }
  | pbInsertPresent (building : s.pbState = .building) (present : palPresent s (keyOperand s.arg0) = true) :
      Effect s .pbInsert { s with res0 := BitVec.ofNat 32 (lowerBound s (keyOperand s.arg0)), res1 := 1#32 }
  | pbInsertNew (building : s.pbState = .building) (absent : palPresent s (keyOperand s.arg0) = false)
      (room : s.pcount.toNat < Config.palCap) :
      Effect s .pbInsert
        { s with
          pal := palInsertAt s (lowerBound s (keyOperand s.arg0)) (keyOperand s.arg0)
          pcount := s.pcount + 1#25
          res0 := BitVec.ofNat 32 (lowerBound s (keyOperand s.arg0))
          res1 := 0#32 }
  | pbSeal (building : s.pbState = .building) (nonempty : s.pcount ≠ 0#25) :
      Effect s .pbSeal
        { s with
          iwidth := BitVec.ofNat 5 (indexWidth s.pcount.toNat)
          pbState := .sealed
          res0 := s.pcount.setWidth 32
          res1 := (BitVec.ofNat 5 (indexWidth s.pcount.toNat)).setWidth 32 }
  | pbLookup (sealed : s.pbState = .sealed) (present : palPresent s (keyOperand s.arg0) = true) :
      Effect s .pbLookup { s with res0 := BitVec.ofNat 32 (lowerBound s (keyOperand s.arg0)) }
  | pbRead (sealed : s.pbState = .sealed) (valid : s.arg0.toNat < s.pcount.toNat) :
      Effect s .pbRead { s with res0 := (palGet s.pal s.arg0.toNat).setWidth 32 }
  | iwcCalc (low : s.arg0.toNat ≠ 0) (high : s.arg0.toNat ≤ 2 ^ 24) :
      Effect s .iwcCalc { s with res0 := BitVec.ofNat 32 (indexWidth s.arg0.toNat) }
  | bpCfgPack {w : BitVec 6} (width : widthOperand s.arg1 = some w) :
      Effect s .bpCfgPack (freshStream .pack w s.arg0 0#32 s)
  | bpPushValue {v : Word} (pack : s.bpMode = .pack) (value : valueOperand s.w s.arg0 = some v)
      (count : s.vcount ≠ s.n) (room : s.accBits.toNat < 8) :
      Effect s .bpPushValue
        { s with acc := accIn s.acc s.accBits v, accBits := s.accBits + s.w, vcount := s.vcount + 1#32 }
  | bpPopByte (pack : s.bpMode = .pack) (ready : 8 ≤ s.accBits.toNat) :
      Effect s .bpPopByte
        { s with
          res0 := (s.acc.extractLsb' 0 8).setWidth 32
          acc := s.acc >>> 8
          accBits := s.accBits - 8#6
          bcount := s.bcount + 1#64 }
  | bpFlush (pack : s.bpMode = .pack) (count : s.vcount = s.n) (room : s.accBits.toNat < 8) :
      Effect s .bpFlush { s with accBits := if s.accBits = 0#6 then 0#6 else 8#6, flushed := true }
  | bpCfgUnpack {w : BitVec 6} (width : widthOperand s.arg1 = some w) :
      Effect s .bpCfgUnpack (freshStream .unpack w s.arg0 s.arg2 s)
  | bpPushByte {b : Byte} (unpack : s.bpMode = .unpack) (running : s.ended = false) (byte : byteOperand s.arg0 = some b)
      (count : s.bcount ≠ s.bneed) (room : s.accBits.toNat ≤ 32) :
      Effect s .bpPushByte
        { s with
          acc := accIn s.acc s.accBits (b.setWidth 32)
          accBits := s.accBits + 8#6
          bcount := s.bcount + 1#64 }
  | bpPopValue (unpack : s.bpMode = .unpack) (count : s.vcount ≠ s.n) (ready : s.w.toNat ≤ s.accBits.toNat)
      (bound : ¬ (s.limit ≠ 0#32 ∧ s.limit ≤ BitVec.ofNat 32 (s.acc.toNat % 2 ^ s.w.toNat))) :
      Effect s .bpPopValue
        { s with
          res0 := BitVec.ofNat 32 (s.acc.toNat % 2 ^ s.w.toNat)
          acc := s.acc >>> s.w.toNat
          accBits := s.accBits - s.w
          vcount := s.vcount + 1#32 }
  | bpEnd (unpack : s.bpMode = .unpack) : Effect s .bpEnd { s with ended := true }
  | bpStop : Effect s .bpStop (stopStream s)

/-- The two ways a command can end: it raises one of its codes, E_BAD_STATE exactly where it is not accepted, or it
succeeds with its effect. -/
inductive Answers (s : State) (i : Instr) : Result → Prop
  | raised (c : StatusCode) (listed : c ∈ raisedBy i) (refused : c = .eBadState ↔ ¬ Accepts i s) :
      Answers s i (raise c s)
  | succeeded {u : State} (effect : Effect s i u) : Answers s i (succeed u)

theorem exec_answers (i : Instr) (s : State) : Answers s i (exec i s) := by
  cases i with
  | nop => exact .succeeded .nop
  | clrerr => exact .succeeded .clrerr
  | reset => exact .succeeded .reset
  | cccCmp => exact .succeeded .cccCmp
  | pbClear => exact .succeeded .pbClear
  | pbInsert =>
    simp only [exec, execPbInsert, insertColour]
    split_ifs with building present full
    · exact .raised _ (by simp [raisedBy]) (by simp [Accepts, building])
    · exact .succeeded (.pbInsertPresent (not_not.1 building) present)
    · exact .raised _ (by simp [raisedBy]) (by simpa [Accepts] using building)
    · exact .succeeded (.pbInsertNew (not_not.1 building) (Bool.not_eq_true _ ▸ present) (not_le.1 full))
  | pbSeal =>
    simp only [exec, execPbSeal]
    split_ifs with building empty
    · exact .raised _ (by simp [raisedBy]) (by simp [Accepts, building])
    · exact .raised _ (by simp [raisedBy]) (by simpa [Accepts] using building)
    · exact .succeeded (.pbSeal (not_not.1 building) empty)
  | pbLookup =>
    simp only [exec, execPbLookup]
    split_ifs with sealed present
    · exact .raised _ (by simp [raisedBy]) (by simp [Accepts, sealed])
    · exact .succeeded (.pbLookup (not_not.1 sealed) present)
    · exact .raised _ (by simp [raisedBy]) (by simpa [Accepts] using sealed)
  | pbRead =>
    simp only [exec, execPbRead]
    split_ifs with sealed beyond
    · exact .raised _ (by simp [raisedBy]) (by simp [Accepts, sealed])
    · exact .raised _ (by simp [raisedBy]) (by simpa [Accepts] using sealed)
    · exact .succeeded (.pbRead (not_not.1 sealed) (not_le.1 beyond))
  | iwcCalc =>
    simp only [exec, execIwcCalc]
    split_ifs with out
    · exact .raised _ (by simp [raisedBy]) (by simp [Accepts])
    · obtain ⟨low, high⟩ := not_or.1 out
      exact .succeeded (.iwcCalc low (not_lt.1 high))
  | bpCfgPack =>
    simp only [exec, execBpCfgPack]
    split
    next => exact .raised _ (by simp [raisedBy]) (by simp [Accepts])
    next width => exact .succeeded (.bpCfgPack width)
  | bpPushValue =>
    simp only [exec, execBpPushValue]
    split
    next pack => exact .raised _ (by simp [raisedBy]) (by simp [Accepts, pack])
    next pack =>
      have pack := not_not.1 pack
      split
      next => exact .raised _ (by simp [raisedBy]) (by simpa [Accepts])
      next value =>
        split_ifs with count full
        · exact .raised _ (by simp [raisedBy]) (by simpa [Accepts])
        · exact .raised _ (by simp [raisedBy]) (by simpa [Accepts])
        · exact .succeeded (.bpPushValue pack value count (not_le.1 full))
  | bpPopByte =>
    simp only [exec, execBpPopByte]
    split_ifs with pack short
    · exact .raised _ (by simp [raisedBy]) (by simp [Accepts, pack])
    · exact .raised _ (by simp [raisedBy]) (by simpa [Accepts] using pack)
    · exact .succeeded (.bpPopByte (not_not.1 pack) (not_lt.1 short))
  | bpFlush =>
    simp only [exec, execBpFlush]
    split
    next pack => exact .raised _ (by simp [raisedBy]) (by simp [Accepts, pack])
    next pack =>
      have pack := not_not.1 pack
      split
      next => exact .raised _ (by simp [raisedBy]) (by simpa [Accepts])
      next count =>
        split
        next => exact .raised _ (by simp [raisedBy]) (by simpa [Accepts])
        next full => exact .succeeded (.bpFlush pack (not_not.1 count) (not_le.1 full))
  | bpCfgUnpack =>
    simp only [exec, execBpCfgUnpack]
    split
    next => exact .raised _ (by simp [raisedBy]) (by simp [Accepts])
    next width => exact .succeeded (.bpCfgUnpack width)
  | bpPushByte =>
    simp only [exec, execBpPushByte]
    split
    next closed => exact .raised _ (by simp [raisedBy]) (by simpa [Accepts, or_iff_not_imp_left] using closed)
    next closed =>
      obtain ⟨unpack, running⟩ : s.bpMode = .unpack ∧ s.ended = false := by simpa using closed
      split
      next => exact .raised _ (by simp [raisedBy]) (by simp [Accepts, unpack, running])
      next byte =>
        split_ifs with count full
        · exact .raised _ (by simp [raisedBy]) (by simp [Accepts, unpack, running])
        · exact .raised _ (by simp [raisedBy]) (by simp [Accepts, unpack, running])
        · exact .succeeded (.bpPushByte unpack running byte count (not_lt.1 full))
  | bpPopValue =>
    simp only [exec, execBpPopValue]
    split_ifs with unpack count short ended bound
    · exact .raised _ (by simp [raisedBy]) (by simp [Accepts, unpack])
    · exact .raised _ (by simp [raisedBy]) (by simpa [Accepts] using unpack)
    · exact .raised _ (by simp [raisedBy]) (by simpa [Accepts] using unpack)
    · exact .raised _ (by simp [raisedBy]) (by simpa [Accepts] using unpack)
    · exact .raised _ (by simp [raisedBy]) (by simpa [Accepts] using unpack)
    · exact .succeeded (.bpPopValue (not_not.1 unpack) count (not_lt.1 short) bound)
  | bpEnd =>
    simp only [exec, execBpEnd]
    split_ifs with unpack
    · exact .raised _ (by simp [raisedBy]) (by simp [Accepts, unpack])
    · exact .succeeded (.bpEnd (not_not.1 unpack))
  | bpStop => exact .succeeded .bpStop

/-- The inversion of exec: a report of one of the command's codes, or the success of its effect. -/
theorem exec_inversion {i : Instr} {s t : State} (h : exec i s = .next t) :
    (∃ c, c ∈ raisedBy i ∧ (c = .eBadState ↔ ¬ Accepts i s) ∧ t = report c s) ∨ ∃ u, Effect s i u ∧ t = success u := by
  generalize hr : exec i s = r at h
  cases hr ▸ exec_answers i s with
  | raised c listed refused => cases h; exact .inl ⟨c, listed, refused, rfl⟩
  | succeeded effect => cases h; exact .inr ⟨_, effect, rfl⟩

/-- OK is no code a command raises. -/
theorem ne_ok_of_mem_raisedBy {c : StatusCode} {i : Instr} (h : c ∈ raisedBy i) : c ≠ .ok := by
  rintro rfl
  revert h
  cases i <;> decide

/-- A command that did not succeed changed nothing but the report. -/
theorem exec_failed {i : Instr} {s t : State} (h : exec i s = .next t) (hc : t.lastCode ≠ .ok) :
    t = report t.lastCode s := by
  obtain ⟨c, -, -, rfl⟩ | ⟨u, -, rfl⟩ := exec_inversion h
  · rw [report_lastCode]
  · exact absurd rfl hc

/-- A command that succeeded had its effect. -/
theorem exec_succeeded {i : Instr} {s t : State} (h : exec i s = .next t) (hc : t.lastCode = .ok) :
    ∃ u, Effect s i u ∧ t = success u := by
  obtain ⟨c, listed, -, rfl⟩ | he := exec_inversion h
  · exact absurd (report_lastCode c s ▸ hc) (ne_ok_of_mem_raisedBy listed)
  · exact he

end Sys2Proof.Proofs
end

section
/-! What a command leaves unchanged: each group of elements, over the commands that do not name it (10_state.md R22, R23,
R25, R31, R36; 60_exceptions.md R203, R212). A raise changes the report alone, so only the effects are looked through. -/

namespace Sys2Proof.Proofs

open Sys2Proof.Machine

variable {i : Instr} {s t : State}

theorem exec_args_frame (h : exec i s = .next t) (hi : i ≠ .reset) :
    t.arg0 = s.arg0 ∧ t.arg1 = s.arg1 ∧ t.arg2 = s.arg2 := by
  obtain ⟨c, -, -, rfl⟩ | ⟨u, effect, rfl⟩ := exec_inversion h
  · simp
  · cases effect <;> simp at hi ⊢

theorem exec_palette_frame (h : exec i s = .next t) (hi : i ∉ [Instr.reset, .pbClear, .pbInsert, .pbSeal]) :
    t.pal = s.pal ∧ t.pcount = s.pcount ∧ t.pbState = s.pbState ∧ t.iwidth = s.iwidth := by
  obtain ⟨c, -, -, rfl⟩ | ⟨u, effect, rfl⟩ := exec_inversion h
  · simp
  · cases effect <;> simp at hi ⊢

theorem exec_sameGearbox (h : exec i s = .next t)
    (hi : i ∉ [Instr.reset, .bpCfgPack, .bpPushValue, .bpPopByte, .bpFlush, .bpCfgUnpack, .bpPushByte, .bpPopValue,
      .bpEnd, .bpStop]) : SameGearbox s t := by
  unfold SameGearbox
  obtain ⟨c, -, -, rfl⟩ | ⟨u, effect, rfl⟩ := exec_inversion h
  · simp
  · cases effect <;> simp at hi ⊢

theorem exec_run_frame (h : exec i s = .next t) :
    t.pending = s.pending ∧ t.responses = s.responses ∧ t.busFault = s.busFault := by
  obtain ⟨c, -, -, rfl⟩ | ⟨u, effect, rfl⟩ := exec_inversion h
  · simp
  · cases effect <;> simp

/-- The sticky report over a success: CLRERR and RESET alone touch it. -/
theorem effect_report_frame {u : State} (effect : Effect s i u) (hi : i ≠ .clrerr) (hi' : i ≠ .reset) :
    u.err = s.err ∧ u.firstErr = s.firstErr := by
  cases effect <;> simp at hi hi' ⊢

theorem effect_res0_frame {u : State} (effect : Effect s i u)
    (hi : i ∉ [Instr.reset, .cccCmp, .pbInsert, .pbSeal, .pbLookup, .pbRead, .iwcCalc, .bpCfgPack, .bpPopByte,
      .bpCfgUnpack, .bpPopValue]) : u.res0 = s.res0 := by
  cases effect <;> simp at hi ⊢

theorem effect_res1_frame {u : State} (effect : Effect s i u)
    (hi : i ∉ [Instr.reset, .cccCmp, .pbInsert, .pbSeal, .bpCfgPack, .bpCfgUnpack]) : u.res1 = s.res1 := by
  cases effect <;> simp at hi ⊢

end Sys2Proof.Proofs
end

section
/-! What a host event does to the state (10_state.md R21, R22, R43, R44; 20_memory.md R60 to R63). -/

namespace Sys2Proof.Proofs

open Sys2Proof.Machine

theorem step_of_pending {s : State} {e : HostEvent} {rest : List HostEvent} (h : s.pending = e :: rest) :
    step s = hostEvent e { s with pending := rest } := by
  simp only [step, h]

/-- A word write to CMD runs its command on the state it finds, the write taken and answered. -/
theorem step_command {s : State} {cw : Word} {rest : List HostEvent} (h : s.pending = .write 4 0x04#8 cw :: rest) :
    step s = command cw (answer .done { s with pending := rest }) :=
  step_of_pending h

theorem step_hwReset {s : State} {rest : List HostEvent} (h : s.pending = .hwReset :: rest) :
    step s = .next (resetElements { s with pending := rest }) :=
  step_of_pending h

/-- A command word runs its command, or is illegal and raises E_ILLEGAL_CMD (30_encoding.md R81, R83). -/
theorem command_inversion {cw : Word} {s t : State} (h : command cw s = .next t) :
    ((∃ e, decode cw = .error e) ∧ t = report .eIllegalCmd s) ∨ ∃ i, decode cw = .ok i ∧ exec i s = .next t := by
  cases hd : decode cw with
  | error e => cases (command_illegal hd s).symm.trans h; exact .inl ⟨⟨e, rfl⟩, rfl⟩
  | ok i => exact .inr ⟨i, rfl, (command_legal hd s).symm.trans h⟩

/-- A named register reads as its content (R21). -/
theorem portRead_regOffset (r : PortReg) (s : State) : portRead (regOffset r) s = regContent Config.palCap s r := by
  simp [portRead]

/-- The named registers end at 0x50 (R21). -/
theorem regOffset_toNat_le (r : PortReg) : (regOffset r).toNat ≤ 0x50 := by
  cases r <;> decide

/-- No register stands above 0x50, so those offsets are reserved and read 0 (R44). -/
theorem portRead_reserved {off : Offset} (h : 0x54 ≤ off.toNat) (s : State) : portRead off s = 0#32 := by
  cases hr : regAt off with
  | none => simp [portRead, hr]
  | some r =>
    have hle := regOffset_toNat_le r
    rw [regAt_eq_some hr] at hle
    omega

/-- A word write runs a command, stores one ARG register, or has no effect (R22, R44). -/
theorem portWrite_cases (off : Offset) (v : Word) (s : State) :
    (off = 0x04#8 ∧ portWrite off v s = command v s) ∨
    (off = 0x08#8 ∧ portWrite off v s = .next { s with arg0 := v }) ∨
    (off = 0x0C#8 ∧ portWrite off v s = .next { s with arg1 := v }) ∨
    (off = 0x10#8 ∧ portWrite off v s = .next { s with arg2 := v }) ∨
    (off ∉ [0x04#8, 0x08#8, 0x0C#8, 0x10#8] ∧ portWrite off v s = .next s) := by
  by_cases hc : off = 0x04#8
  · subst hc; exact .inl ⟨rfl, rfl⟩
  by_cases h0 : off = 0x08#8
  · subst h0; exact .inr (.inl ⟨rfl, rfl⟩)
  by_cases h1 : off = 0x0C#8
  · subst h1; exact .inr (.inr (.inl ⟨rfl, rfl⟩))
  by_cases h2 : off = 0x10#8
  · subst h2; exact .inr (.inr (.inr (.inl ⟨rfl, rfl⟩)))
  refine .inr (.inr (.inr (.inr ⟨by simp [hc, h0, h1, h2], ?_⟩)))
  cases hr : regAt off with
  | none => simp [portWrite, hr]
  | some r =>
    have ho := regAt_eq_some hr
    cases r with
    | cmd => exact absurd ho.symm hc
    | arg0 => exact absurd ho.symm h0
    | arg1 => exact absurd ho.symm h1
    | arg2 => exact absurd ho.symm h2
    | _ => simp [portWrite, hr]

/-- A read, performed or refused, changes the run's record alone (R43). -/
theorem step_read_frame {s t : State} {size : Nat} {off : Offset} {rest : List HostEvent} (h : step s = .next t)
    (hp : s.pending = .read size off :: rest) :
    t = { s with pending := rest, responses := t.responses, busFault := t.busFault } := by
  simp only [step_of_pending hp, hostEvent] at h
  split at h <;> cases h <;> rfl

/-- A write beside CMD, performed or refused, changes the run's record and the ARG registers alone (R43). -/
theorem step_write_frame {s t : State} {size : Nat} {off : Offset} {v : Word} {rest : List HostEvent}
    (h : step s = .next t) (hp : s.pending = .write size off v :: rest) (ho : off ≠ 0x04#8) :
    t = { s with
      pending := rest, responses := t.responses, busFault := t.busFault
      arg0 := t.arg0, arg1 := t.arg1, arg2 := t.arg2 } := by
  simp only [step_of_pending hp, hostEvent] at h
  split at h
  · obtain ⟨hc, -⟩ | ⟨-, hw⟩ | ⟨-, hw⟩ | ⟨-, hw⟩ | ⟨-, hw⟩ :=
      portWrite_cases off v (answer .done { s with pending := rest })
    · exact absurd hc ho
    all_goals
      rw [hw] at h
      cases h
      rfl
  · cases h
    rfl

/-- A refused write changes the run's record alone (R63). -/
theorem step_refused_write_frame {s t : State} {size : Nat} {off : Offset} {v : Word} {rest : List HostEvent}
    (h : step s = .next t) (hp : s.pending = .write size off v :: rest) (hf : performs size off = false) :
    t = { s with pending := rest, responses := t.responses, busFault := t.busFault } := by
  simp only [step_of_pending hp, hostEvent, hf] at h
  cases h
  rfl

/-- Where the next event is neither a word write to CMD nor the reset input, a step changes the run's record and the ARG
registers alone. -/
theorem step_frame_of_no_command {s t : State} (h : step s = .next t)
    (hcmd : ∀ cw rest, s.pending ≠ .write 4 0x04#8 cw :: rest) (hrst : ∀ rest, s.pending ≠ .hwReset :: rest) :
    t = { s with
      pending := t.pending, responses := t.responses, busFault := t.busFault
      arg0 := t.arg0, arg1 := t.arg1, arg2 := t.arg2 } := by
  match hp : s.pending with
  | [] => simp only [step, hp] at h; cases h; rfl
  | .read size off :: rest => rw [step_read_frame h hp]
  | .write size off v :: rest =>
    by_cases ho : off = 0x04#8
    · subst ho
      have hsize : size ≠ 4 := by rintro rfl; exact hcmd v rest hp
      rw [step_refused_write_frame h hp (by simp [performs, hsize])]
    · rw [step_write_frame h hp ho]
  | .hwReset :: rest => exact absurd hp (hrst rest)

/-- Settles O6: the frames of a read and of a write beside CMD, and a write to CMD as its command. -/
theorem hostAccessesTouchOnlyTheirRegister : Obligations.HostAccessesTouchOnlyTheirRegister := fun _ _ h =>
  ⟨fun _ _ _ hp => step_read_frame h hp, fun _ _ _ _ hp ho => step_write_frame h hp ho,
    fun _ _ hp => (step_command hp).symm.trans h⟩

/-- Settles O8: a write that portWrite ignores, and the reads of CMD and of the offsets above the map. -/
theorem reservedAndReadOnlyOffsets : Obligations.ReservedAndReadOnlyOffsets := by
  intro s off v rest haligned
  have hperforms : performs 4 off = true := (performs_iff 4 off).2 ⟨rfl, haligned⟩
  constructor
  · intro hcmd h0 h1 h2 hp
    simp only [step_of_pending hp, hostEvent, hperforms, if_true]
    obtain ⟨ho, -⟩ | ⟨ho, -⟩ | ⟨ho, -⟩ | ⟨ho, -⟩ | ⟨-, hw⟩ :=
      portWrite_cases off v (answer .done { s with pending := rest })
    · exact absurd ho hcmd
    · exact absurd ho h0
    · exact absurd ho h1
    · exact absurd ho h2
    · exact hw
  · intro hoff hp
    have hread : portRead off { s with pending := rest } = 0#32 := by
      rcases hoff with hoff | rfl
      · exact portRead_reserved hoff _
      · rfl
    simp only [step_of_pending hp, hostEvent, hperforms, if_true, hread]
    rfl

/-- The ARG registers over a step without an ARG write and without a reset. -/
theorem step_args_frame {s t : State} (h : step s = .next t)
    (harg : ∀ off v rest, off = 0x08#8 ∨ off = 0x0C#8 ∨ off = 0x10#8 → s.pending ≠ .write 4 off v :: rest)
    (hreset : ∀ cw rest, s.pending = .write 4 0x04#8 cw :: rest → decode cw ≠ .ok .reset)
    (hrst : ∀ rest, s.pending ≠ .hwReset :: rest) :
    t.arg0 = s.arg0 ∧ t.arg1 = s.arg1 ∧ t.arg2 = s.arg2 := by
  obtain ⟨-, hs⟩ | ⟨_, _, _, -, -, hs⟩ | ⟨size, off, v, rest, hp, hf, hs⟩ | ⟨_, _, -, -, hs⟩ | ⟨rest, hp, -⟩ :=
    step_cases s
  · cases hs.symm.trans h; simp
  · cases hs.symm.trans h; simp
  · obtain ⟨rfl, -⟩ := (performs_iff size off).1 hf
    rw [hs] at h
    obtain ⟨rfl, hw⟩ | ⟨ho, -⟩ | ⟨ho, -⟩ | ⟨ho, -⟩ | ⟨-, hw⟩ :=
      portWrite_cases off v (answer .done { s with pending := rest })
    · rw [hw] at h
      obtain ⟨-, rfl⟩ | ⟨i, hd, he⟩ := command_inversion h
      · simp
      · have hargs := exec_args_frame he fun hi => hreset v rest hp (hi ▸ hd)
        exact hargs
    · exact absurd hp (harg off v rest (.inl ho))
    · exact absurd hp (harg off v rest (.inr (.inl ho)))
    · exact absurd hp (harg off v rest (.inr (.inr ho)))
    · cases hw.symm.trans h; simp
  · cases hs.symm.trans h; simp
  · exact absurd hp (hrst rest)

/-- Settles O7: the six accesses evaluated at their offsets, and the frame of every other step. -/
theorem argRegistersStoreEveryBit : Obligations.ArgRegistersStoreEveryBit :=
  ⟨fun _ _ _ => ⟨step_of_pending, step_of_pending, step_of_pending, step_of_pending, step_of_pending, step_of_pending⟩,
    fun _ _ => step_args_frame⟩

end Sys2Proof.Proofs
end

section
/-! The contents of the registers (10_state.md R21, R28 to R30) and their values at reset (R45). -/

namespace Sys2Proof.Proofs

open Sys2Proof.Machine

theorem loWord_eq (v : BitVec 64) : loWord v = BitVec.ofNat 32 (v.toNat % 2 ^ 32) := by
  apply BitVec.eq_of_toNat_eq
  simp [loWord]

theorem hiWord_eq (v : BitVec 64) : hiWord v = BitVec.ofNat 32 (v.toNat / 2 ^ 32) := by
  apply BitVec.eq_of_toNat_eq
  simp [hiWord, Nat.shiftRight_eq_div_pow]

theorem accLo_eq (acc : BitVec 40) : acc.extractLsb' 0 32 = BitVec.ofNat 32 (acc.toNat % 2 ^ 32) := by
  apply BitVec.eq_of_toNat_eq
  simp

theorem accHi_eq (acc : BitVec 40) : (acc.extractLsb' 32 8).setWidth 32 = BitVec.ofNat 32 (acc.toNat / 2 ^ 32) := by
  have hacc := acc.isLt
  apply BitVec.eq_of_toNat_eq
  simp [Nat.shiftRight_eq_div_pow]
  omega

/-- PAL_CAP fits in its register (R30). -/
theorem palCap_word_toNat : (BitVec.ofNat 32 Config.palCap).toNat = Config.palCap := by
  have hcap := Config.palCap_le
  rw [BitVec.toNat_ofNat, Nat.mod_eq_of_lt (by omega)]

/-- A word read is answered by the content its offset has in the state the step finds (R21, R66). -/
theorem step_read_word {s : State} {off : Offset} {rest : List HostEvent} (haligned : off.toNat % 4 = 0)
    (hp : s.pending = .read 4 off :: rest) :
    step s = .next { s with pending := rest, responses := s.responses ++ [.data (portRead off s)] } := by
  have hperforms : performs 4 off = true := (performs_iff 4 off).2 ⟨rfl, haligned⟩
  obtain ⟨h, -⟩ | ⟨_, _, _, h, -, hs⟩ | ⟨_, _, _, _, h, -⟩ | ⟨_, _, h, hwf, -⟩ | ⟨_, h, -⟩ := step_cases s
  · cases hp.symm.trans h
  · cases hp.symm.trans h
    exact hs
  · cases hp.symm.trans h
  · cases hp.symm.trans h
    rw [← performs_read, hperforms] at hwf
    cases hwf
  · cases hp.symm.trans h

/-- Settles O5: the answer of a word read, and the content column register by register. -/
theorem registerMapContents : Obligations.RegisterMapContents := fun s =>
  ⟨fun _ _ => step_read_word,
    portRead_regOffset .ident s, portRead_regOffset .cmd s,
    portRead_regOffset .arg0 s, portRead_regOffset .arg1 s, portRead_regOffset .arg2 s,
    portRead_regOffset .res0 s, portRead_regOffset .res1 s, portRead_regOffset .status s,
    (portRead_regOffset .pcount s).trans (BitVec.ofNat_toNat 32 s.pcount).symm,
    (portRead_regOffset .iwidth s).trans (BitVec.ofNat_toNat 32 s.iwidth).symm,
    portRead_regOffset .cap s, (congrArg BitVec.toNat (portRead_regOffset .cap s)).trans palCap_word_toNat,
    (portRead_regOffset .bpW s).trans (BitVec.ofNat_toNat 32 s.w).symm,
    portRead_regOffset .bpN s, portRead_regOffset .bpVcount s,
    (portRead_regOffset .bpBcountLo s).trans (loWord_eq _), (portRead_regOffset .bpBcountHi s).trans (hiWord_eq _),
    (portRead_regOffset .bpBneedLo s).trans (loWord_eq _), (portRead_regOffset .bpBneedHi s).trans (hiWord_eq _),
    portRead_regOffset .bpLimit s,
    (portRead_regOffset .bpAccLo s).trans (accLo_eq _), (portRead_regOffset .bpAccHi s).trans (accHi_eq _)⟩

/-- Two fields side by side: the upper one counts in units of the lower one's range. -/
theorem toNat_append_eq_add {m n : Nat} (x : BitVec m) (y : BitVec n) :
    (x ++ y).toNat = x.toNat * 2 ^ n + y.toNat := by
  rw [BitVec.toNat_append, ← Nat.shiftLeft_add_eq_or_of_lt y.isLt, Nat.shiftLeft_eq]

theorem pbStateBits_toNat (q : PbState) :
    (pbStateBits q).toNat = match q with | .idle => 0 | .building => 1 | .sealed => 2 := by
  cases q <;> rfl

theorem bpModeBits_toNat (m : BpMode) :
    (bpModeBits m).toNat = match m with | .off => 0 | .pack => 1 | .unpack => 2 := by
  cases m <;> rfl

/-- STATUS as the sum of its fields (R28). -/
theorem statusWord_toNat (s : State) :
    (statusWord s).toNat =
      s.err.toNat + 2 * (bpDone s).toNat + 4 * (bpByteAvail s).toNat + 8 * (bpEndFlag s).toNat +
      16 * (bpFlushedFlag s).toNat + 32 * (bpValueAvail s).toNat + 2 ^ 6 * (pbStateBits s.pbState).toNat +
      2 ^ 8 * (bpModeBits s.bpMode).toNat + 2 ^ 10 * s.accBits.toNat + 2 ^ 16 * (codeByte s.lastCode).toNat +
      2 ^ 24 * (codeByte s.firstErr).toNat := by
  simp only [statusWord, toNat_append_eq_add, BitVec.toNat_ofBool]
  ring

/-- BP_DONE (R29): its two defining modes, and 0 in OFF. -/
theorem bpDone_iff (s : State) :
    bpDone s = true ↔
      (s.bpMode = .pack ∧ s.vcount = s.n ∧ s.flushed = true ∧ s.accBits.toNat = 0) ∨
      (s.bpMode = .unpack ∧ s.vcount = s.n) := by
  have hbits : s.accBits = 0#6 ↔ s.accBits.toNat = 0 := BitVec.toNat_inj.symm
  unfold bpDone
  cases hm : s.bpMode <;> simp [hbits, and_assoc]

/-- Settles O12: the fields are the flags of R28, and their sum is the word's value. -/
theorem statusWordFields : Obligations.StatusWordFields := by
  refine ⟨by decide, fun s => ⟨portRead_regOffset .status s, bpDone s, bpByteAvail s, bpEndFlag s, bpFlushedFlag s,
    bpValueAvail s, bpDone_iff s, ?byteAvail, ?ended, ?flushed, ?valueAvail, ?sum⟩⟩
  case byteAvail => simp [bpByteAvail]
  case ended => simp [bpEndFlag]
  case flushed => simp [bpFlushedFlag]
  case valueAvail => simp [bpValueAvail, and_assoc, BitVec.lt_def, BitVec.le_def]
  case sum =>
    have hsum := statusWord_toNat s
    rw [pbStateBits_toNat, bpModeBits_toNat] at hsum
    exact hsum

/-- Settles O13: the content of each register in the reset state. -/
theorem resetStateReads : Obligations.ResetStateReads := by
  intro r
  rw [portRead_regOffset]
  cases r <;> rfl

theorem atResetValues_resetElements (s : State) : AtResetValues (resetElements s) := by
  constructor <;> simp [State.reset, codeByte]

theorem statusWord_resetElements (s : State) : statusWord (resetElements s) = 0#32 :=
  show statusWord State.reset = 0#32 from statusWordFields.1

/-- Settles O11: RESET and the reset input both end in resetElements, where every element but PAL has its reset value. -/
theorem resetValues : Obligations.ResetValues :=
  ⟨decode_reset, fun s => ⟨resetElements s, rfl, step_hwReset rfl, atResetValues_resetElements s,
    statusWord_resetElements s, rfl, rfl⟩⟩

end Sys2Proof.Proofs
end

section
/-! The sticky error report, the result registers and the two state machines (10_state.md R23, R25, R27, R31, R36). -/

namespace Sys2Proof.Proofs

open Sys2Proof.Machine

/-- What a report does to ERR and FIRSTERR (60_exceptions.md R203). -/
theorem report_sticky (c : StatusCode) (s : State) :
    (codeClass c = .error →
      (report c s).err = true ∧ (report c s).firstErr = if s.firstErr = .ok then c else s.firstErr) ∧
    (codeClass c ≠ .error → (report c s).err = s.err ∧ (report c s).firstErr = s.firstErr) := by
  constructor <;> intro hc <;> simp [report_err, report_firstErr, hc]

/-- CLRERR and RESET leave no error recorded (40_control.md R101, R102). -/
theorem command_clears_report {cw : Word} {s t : State} (h : command cw s = .next t)
    (hd : decode cw = .ok .clrerr ∨ decode cw = .ok .reset) : t.err = false ∧ t.firstErr = .ok := by
  rcases hd with hd | hd
  · cases (command_legal hd s).symm.trans h
    exact ⟨rfl, rfl⟩
  · cases (command_legal hd s).symm.trans h
    exact ⟨rfl, rfl⟩

/-- Every other command word records its code where it is an error, and otherwise leaves the report (R25, R27). -/
theorem command_sticky {cw : Word} {s t : State} (h : command cw s = .next t) (hclr : decode cw ≠ .ok .clrerr)
    (hrst : decode cw ≠ .ok .reset) :
    (codeClass t.lastCode = .error →
      t.err = true ∧ t.firstErr = if s.firstErr = .ok then t.lastCode else s.firstErr) ∧
    (codeClass t.lastCode ≠ .error → t.err = s.err ∧ t.firstErr = s.firstErr) := by
  obtain ⟨-, rfl⟩ | ⟨i, hd, he⟩ := command_inversion h
  · simpa using report_sticky .eIllegalCmd s
  obtain ⟨c, -, -, rfl⟩ | ⟨u, effect, rfl⟩ := exec_inversion he
  · simpa using report_sticky c s
  · have hframe := effect_report_frame effect (by rintro rfl; exact hclr hd) (by rintro rfl; exact hrst hd)
    exact ⟨fun hok => by simp [codeClass] at hok, fun _ => hframe⟩

/-- Settles O17: the report over a CMD write, over the reset input, and over every other event. -/
theorem stickyErrorReport : Obligations.StickyErrorReport := by
  intro s t h
  refine ⟨fun cw rest hp => ?command, fun rest hp => ?reset, fun hcmd hrst => ?other⟩
  case command =>
    rw [step_command hp] at h
    refine ⟨command_clears_report h, fun hclr hreset => ?_⟩
    have hsticky := command_sticky h hclr hreset
    exact hsticky
  case reset =>
    cases (step_hwReset hp).symm.trans h
    exact ⟨rfl, rfl⟩
  case other =>
    rw [step_frame_of_no_command h hcmd hrst]
    exact ⟨rfl, rfl, rfl⟩

/-- Settles O18: a raise and every effect that does not name the register leave it. -/
theorem resultRegisterWriters : Obligations.ResultRegisterWriters := by
  intro i s t h
  obtain ⟨c, -, -, rfl⟩ | ⟨u, effect, rfl⟩ := exec_inversion h
  · simp
  · refine ⟨fun hne => ⟨rfl, ?_⟩, fun hne => ⟨rfl, ?_⟩⟩
    · by_contra hi
      have hsame := effect_res0_frame effect hi
      exact hne hsame
    · by_contra hi
      have hsame := effect_res1_frame effect hi
      exact hne hsame

/-- A command that has an effect was accepted. -/
theorem effect_accepts {i : Instr} {s u : State} (effect : Effect s i u) : Accepts i s := by
  cases effect <;> simp [Accepts, *]

/-- A command ends with E_BAD_STATE exactly where it is not accepted. -/
theorem exec_badState_iff {i : Instr} {s t : State} (h : exec i s = .next t) :
    t.lastCode = .eBadState ↔ ¬ Accepts i s := by
  obtain ⟨c, -, refused, rfl⟩ | ⟨u, effect, rfl⟩ := exec_inversion h
  · rwa [report_lastCode]
  · simp [effect_accepts effect]

/-- PB_STATE over the commands that do not move it: PB_INSERT keeps BUILDING (R31). -/
theorem exec_pbState_frame {i : Instr} {s t : State} (h : exec i s = .next t)
    (hi : i ∉ [Instr.reset, .pbClear, .pbSeal]) : t.pbState = s.pbState := by
  obtain ⟨c, -, -, rfl⟩ | ⟨u, effect, rfl⟩ := exec_inversion h
  · simp
  · cases effect <;> simp at hi ⊢

/-- Settles O20: the moves of PB_STATE by each palette command's effect, its refusals by Accepts, and the frame. -/
theorem paletteStateTransitions : Obligations.PaletteStateTransitions := by
  intro i s t h
  refine ⟨?clear, ?insert, ?sealed, ?readers, ?writersAccepted, ?readersAccepted, ?reset, ?frame⟩
  case clear =>
    rintro rfl
    cases h
    exact ⟨rfl, rfl⟩
  case insert =>
    rintro rfl hok
    obtain ⟨u, effect, rfl⟩ := exec_succeeded h hok
    have building : s.pbState = .building := effect_accepts effect
    exact ⟨building, (exec_pbState_frame h (by decide)).trans building⟩
  case sealed =>
    rintro rfl hok
    obtain ⟨u, effect, rfl⟩ := exec_succeeded h hok
    cases effect with
    | pbSeal building => exact ⟨building, rfl⟩
  case readers =>
    intro hi hok
    obtain ⟨u, effect, -⟩ := exec_succeeded h hok
    rcases hi with rfl | rfl
    · exact effect_accepts effect
    · exact effect_accepts effect
  case writersAccepted =>
    intro hi building hbad
    rcases hi with rfl | rfl
    · exact (exec_badState_iff h).1 hbad building
    · exact (exec_badState_iff h).1 hbad building
  case readersAccepted =>
    intro hi sealed hbad
    rcases hi with rfl | rfl
    · exact (exec_badState_iff h).1 hbad sealed
    · exact (exec_badState_iff h).1 hbad sealed
  case reset =>
    rintro rfl
    cases h
    rfl
  case frame =>
    rintro (hi | hfail)
    · exact exec_pbState_frame h hi
    · rw [exec_failed h hfail, report_pbState]

/-- BP_MODE over the commands that do not move it (R36). -/
theorem exec_bpMode_frame {i : Instr} {s t : State} (h : exec i s = .next t)
    (hi : i ∉ [Instr.bpCfgPack, .bpCfgUnpack, .bpStop, .reset]) : t.bpMode = s.bpMode := by
  obtain ⟨c, -, -, rfl⟩ | ⟨u, effect, rfl⟩ := exec_inversion h
  · simp
  · cases effect <;> simp at hi ⊢

/-- Settles O22: the moves of BP_MODE by the effects of the two configurations, BP_STOP and RESET, and the frame. -/
theorem gearboxModeTransitions : Obligations.GearboxModeTransitions := by
  intro i s t h
  refine ⟨?pack, ?unpack, ?off, ?frame⟩
  case pack =>
    rintro rfl hok
    obtain ⟨u, effect, rfl⟩ := exec_succeeded h hok
    cases effect
    rfl
  case unpack =>
    rintro rfl hok
    obtain ⟨u, effect, rfl⟩ := exec_succeeded h hok
    cases effect
    rfl
  case off =>
    rintro (rfl | rfl)
    · cases h
      exact ⟨rfl, rfl⟩
    · cases h
      exact ⟨rfl, rfl⟩
  case frame =>
    rintro (hi | hfail)
    · exact exec_bpMode_frame h hi
    · rw [exec_failed h hfail, report_bpMode]

end Sys2Proof.Proofs
end

section
/-! The palette part of the invariant (10_state.md R31 to R35; 42_palette_builder.md R120 to R124). -/

namespace Sys2Proof.Proofs

open Sys2Proof.Machine

/-- The ascending order of R33, entry by entry. -/
theorem ascending_iff (s : State) :
    (palEntries s).Pairwise (· < ·) ↔
      ∀ i j, i < j → j < s.pcount.toNat → palGet s.pal i < palGet s.pal j := by
  simp only [palEntries, List.pairwise_iff_getElem, List.length_map, List.length_range, List.getElem_map,
    List.getElem_range]
  exact ⟨fun h i j hij hj => h i j (hij.trans hj) hj hij, fun h i j _ hj hij => h i j hij hj⟩

/-- In an ascending list the keys below k stand first, so their count says which they are. -/
theorem getElem_lt_iff_lt_countP {l : List Key} (hl : l.Pairwise (· < ·)) (k : Key) :
    ∀ j (hj : j < l.length), l[j] < k ↔ j < l.countP (fun e => decide (e < k)) := by
  induction hl with
  | nil => intro j hj; simp at hj
  | @cons a l ha _ ih =>
    intro j hj
    by_cases hak : a < k
    · rw [List.countP_cons_of_pos (by simpa using hak)]
      cases j with
      | zero => simpa using hak
      | succ j => simpa using ih j (by simpa using hj)
    · have hnone : ∀ e ∈ a :: l, ¬ e < k := by
        intro e he hek
        rcases List.mem_cons.1 he with rfl | he
        · exact hak hek
        · exact hak (BitVec.lt_trans (ha e he) hek)
      have hzero : (a :: l).countP (fun e => decide (e < k)) = 0 := by simpa [List.countP_eq_zero] using hnone
      rw [hzero]
      exact ⟨fun h => absurd h (hnone _ (List.getElem_mem hj)), fun h => absurd h (Nat.not_lt_zero j)⟩

/-- lb(k) cuts the valid entries: those below k stand before it (R120). -/
theorem palGet_lt_iff {s : State} (hs : (palEntries s).Pairwise (· < ·)) (k : Key) {j : Nat}
    (hj : j < s.pcount.toNat) : palGet s.pal j < k ↔ j < lowerBound s k := by
  have hcut := getElem_lt_iff_lt_countP hs k j (by rwa [length_palEntries])
  simpa [palEntries, lowerBound] using hcut

/-- Where k is absent, the entries from lb(k) on stand above it (R120). -/
theorem lt_palGet_of_absent {s : State} (hs : (palEntries s).Pairwise (· < ·)) {k : Key}
    (absent : palPresent s k = false) {j : Nat} (hlb : lowerBound s k ≤ j) (hj : j < s.pcount.toNat) :
    k < palGet s.pal j := by
  have hle : ∀ i, lowerBound s k ≤ i → i < s.pcount.toNat → k ≤ palGet s.pal i := fun i hi hn =>
    BitVec.not_lt.1 fun hlt => absurd ((palGet_lt_iff hs k hn).1 hlt) (by omega)
  have hne : palGet s.pal (lowerBound s k) ≠ k := by
    intro heq
    simp [palPresent, heq, hlb.trans_lt hj] at absent
  have hfirst : k < palGet s.pal (lowerBound s k) :=
    BitVec.lt_of_le_ne (hle _ le_rfl (hlb.trans_lt hj)) hne.symm
  rcases hlb.eq_or_lt with rfl | hlt
  · exact hfirst
  · exact BitVec.lt_trans hfirst ((ascending_iff s).1 hs _ _ hlt hj)

/-- Inserting an absent key at lb(k) keeps the valid entries ascending (R33, R122). -/
theorem ascending_palInsertAt {s t : State} {k : Key} (hs : (palEntries s).Pairwise (· < ·))
    (absent : palPresent s k = false) (hpal : t.pal = palInsertAt s (lowerBound s k) k)
    (hcount : t.pcount.toNat = s.pcount.toNat + 1) : (palEntries t).Pairwise (· < ·) := by
  have hp := lowerBound_le s k
  have hasc := (ascending_iff s).1 hs
  have hbelow : ∀ i, i < lowerBound s k → palGet s.pal i < k := fun i hi => (palGet_lt_iff hs k (by omega)).2 hi
  have habove : ∀ i, lowerBound s k ≤ i → i < s.pcount.toNat → k < palGet s.pal i := fun i hi hn =>
    lt_palGet_of_absent hs absent hi hn
  generalize lowerBound s k = p at *
  have hget := fun i => hpal ▸ palGet_palInsertAt s k hp i
  have hlow : ∀ i, i < p → palGet t.pal i = palGet s.pal i := fun i hi => by
    rw [hget, if_neg (by omega), if_neg (by omega)]
  have hat : palGet t.pal p = k := by rw [hget, if_pos rfl]
  have hhigh : ∀ i, p < i → i ≤ s.pcount.toNat → palGet t.pal i = palGet s.pal (i - 1) := fun i hi hn => by
    rw [hget, if_neg (by omega), if_pos ⟨hi, hn⟩]
  refine (ascending_iff t).2 fun i j hij hj => ?_
  rcases lt_trichotomy i p with hi | rfl | hi
  · rw [hlow i hi]
    rcases lt_trichotomy j p with hjp | rfl | hjp
    · rw [hlow j hjp]
      exact hasc i j hij (by omega)
    · rw [hat]
      exact hbelow i hi
    · rw [hhigh j hjp (by omega)]
      exact hasc i (j - 1) (by omega) (by omega)
  · rw [hat, hhigh j hij (by omega)]
    exact habove (j - 1) (by omega) (by omega)
  · rw [hhigh i hi (by omega), hhigh j (by omega) (by omega)]
    exact hasc (i - 1) (j - 1) (by omega) (by omega)

/-- The palette part speaks of the palette builder's elements alone. -/
theorem paletteInv_of_eq {cap : Nat} {s t : State} (h : PaletteInv cap s) (hpal : t.pal = s.pal)
    (hcount : t.pcount = s.pcount) (hstate : t.pbState = s.pbState) (hwidth : t.iwidth = s.iwidth) :
    PaletteInv cap t where
  form := hpal ▸ h.form
  exist := hpal ▸ h.exist
  count := hcount ▸ h.count
  ascending := by
    unfold palEntries
    rw [hpal, hcount]
    exact h.ascending
  state := by
    rw [hstate, hcount, hwidth]
    exact h.state

/-- No palette has an index width that IWIDTH cannot hold (R35; 43_index_width.md R140). -/
theorem indexWidth_lt {n : Nat} (h : n ≤ 2 ^ 24) : indexWidth n < 2 ^ 5 := by
  unfold indexWidth bitlen
  split_ifs with h0
  · decide
  · have hlog : (n - 1).log2 < 24 := (Nat.log2_lt h0).2 (by omega)
    omega

theorem paletteInv_reset (cap : Nat) : PaletteInv cap State.reset where
  form := palWf_reset
  exist := by simp [State.reset]
  count := Nat.zero_le cap
  ascending := List.Pairwise.nil
  state := ⟨rfl, rfl⟩

/-- PB_INSERT of an absent colour in a palette with room keeps the palette part (R122). -/
theorem paletteInv_pbInsertNew {s t : State} {k : Key} (h : PaletteInv Config.palCap s)
    (building : s.pbState = .building) (absent : palPresent s k = false) (room : s.pcount.toNat < Config.palCap)
    (hpal : t.pal = palInsertAt s (lowerBound s k) k) (hcount : t.pcount = s.pcount + 1#25)
    (hstate : t.pbState = s.pbState) (hwidth : t.iwidth = s.iwidth) : PaletteInv Config.palCap t := by
  have hcap := Config.palCap_le
  have hsucc : t.pcount.toNat = s.pcount.toNat + 1 := by
    rw [hcount, BitVec.toNat_add]
    exact Nat.mod_eq_of_lt (by simp; omega)
  have hstate' := h.state
  rw [building] at hstate hstate'
  exact
    { form := hpal ▸ palWf_palInsertAt s _ k h.form
      exist := hpal ▸ index_lt_of_mem_palInsertAt (lowerBound_le s k) room h.exist
      count := by omega
      ascending := ascending_palInsertAt h.ascending absent hpal hsucc
      state := by
        rw [hstate, hwidth]
        exact hstate' }

/-- Every effect keeps the palette part. -/
theorem effect_keeps_paletteInv {i : Instr} {s u : State} (effect : Effect s i u) (h : PaletteInv Config.palCap s) :
    PaletteInv Config.palCap u := by
  cases effect with
  | reset => exact paletteInv_of_eq (paletteInv_reset _) rfl rfl rfl rfl
  | pbClear =>
    exact
      { form := h.form
        exist := h.exist
        count := Nat.zero_le _
        ascending := List.Pairwise.nil
        state := rfl }
  | pbInsertNew building absent room => exact paletteInv_pbInsertNew h building absent room rfl rfl rfl rfl
  | pbSeal building nonempty =>
    have hpos : s.pcount.toNat ≠ 0 := fun h0 => nonempty (BitVec.eq_of_toNat_eq h0)
    have hwidth : indexWidth s.pcount.toNat < 2 ^ 5 := indexWidth_lt (h.count.trans Config.palCap_le)
    exact
      { form := h.form
        exist := h.exist
        count := h.count
        ascending := h.ascending
        state := ⟨Nat.one_le_iff_ne_zero.2 hpos, by rw [BitVec.toNat_ofNat, Nat.mod_eq_of_lt hwidth]⟩ }
  | _ => exact paletteInv_of_eq h rfl rfl rfl rfl

end Sys2Proof.Proofs
end

section
/-! The gearbox part of the invariant (10_state.md R36 to R42; 44_bit_packer.md R151 to R162). -/

namespace Sys2Proof.Proofs

open Sys2Proof.Machine

/-! Operands and the accumulator -/

theorem widthOperand_le {a : Word} {w : BitVec 6} (h : widthOperand a = some w) : w.toNat ≤ 32 := by
  rw [widthOperand_eq] at h
  split at h
  next ha =>
    cases h
    rw [BitVec.toNat_ofNat]
    exact (Nat.mod_le _ _).trans ha
  next => cases h

theorem valueOperand_lt {w : BitVec 6} {a v : Word} (h : valueOperand w a = some v) : v.toNat < 2 ^ w.toNat := by
  unfold valueOperand at h
  split at h
  next ha =>
    cases h
    exact ha
  next => cases h

/-- A value of k bits on top of the valid bits of ACC leaves ACC below the new bits (R41, R152, R160). -/
theorem accIn_lt {acc : BitVec 40} {bits : BitVec 6} {v : Word} {k : Nat} (clean : acc.toNat < 2 ^ bits.toNat)
    (hv : v.toNat < 2 ^ k) (fits : bits.toNat + k ≤ 40) : (accIn acc bits v).toNat < 2 ^ (bits.toNat + k) := by
  rw [accIn_toNat clean (shifted_lt hv fits)]
  calc acc.toNat + v.toNat * 2 ^ bits.toNat < (v.toNat + 1) * 2 ^ bits.toNat := by linarith
    _ ≤ 2 ^ k * 2 ^ bits.toNat := Nat.mul_le_mul_right _ hv
    _ = 2 ^ (bits.toNat + k) := by rw [← pow_add, Nat.add_comm]

/-- Taking k bits from the bottom of ACC leaves it below the bits that stay (R41, R153, R161). -/
theorem acc_ushiftRight_lt {acc : BitVec 40} {bits k : Nat} (clean : acc.toNat < 2 ^ bits) (hk : k ≤ bits) :
    (acc >>> k).toNat < 2 ^ (bits - k) := by
  rw [BitVec.toNat_ushiftRight, Nat.shiftRight_eq_div_pow]
  apply Nat.div_lt_of_lt_mul
  rwa [← pow_add, Nat.add_sub_of_le hk]

/-! What the invariant says in each mode, and the room of the counters -/

section

variable {s : State} (h : GearInv s)
include h

theorem gear_pack (pack : s.bpMode = .pack) :
    s.limit = 0#32 ∧ s.ended = false ∧ s.accBits.toNat ≤ 39 ∧
      (s.flushed = false → s.vcount.toNat * s.w.toNat = 8 * s.bcount.toNat + s.accBits.toNat) ∧
      (s.flushed = true →
        s.vcount = s.n ∧ 8 * s.bcount.toNat + s.accBits.toNat = 8 * s.bneed.toNat ∧ s.accBits.toNat ≤ 8) := by
  simpa only [pack] using h.mode

theorem gear_unpack (unpack : s.bpMode = .unpack) :
    s.flushed = false ∧ 8 * s.bcount.toNat = s.vcount.toNat * s.w.toNat + s.accBits.toNat := by
  simpa only [unpack] using h.mode

theorem vcount_lt (count : s.vcount ≠ s.n) : s.vcount.toNat < s.n.toNat :=
  lt_of_le_of_ne h.values fun he => count (BitVec.eq_of_toNat_eq he)

theorem vcount_succ (count : s.vcount ≠ s.n) : (s.vcount + 1#32).toNat = s.vcount.toNat + 1 := by
  have hlt := vcount_lt h count
  have hn := s.n.isLt
  rw [BitVec.toNat_add]
  exact Nat.mod_eq_of_lt (by simp; omega)

theorem bcount_lt (count : s.bcount ≠ s.bneed) : s.bcount.toNat < s.bneed.toNat :=
  lt_of_le_of_ne h.bytes fun he => count (BitVec.eq_of_toNat_eq he)

theorem bcount_succ (count : s.bcount ≠ s.bneed) : (s.bcount + 1#64).toNat = s.bcount.toNat + 1 := by
  have hlt := bcount_lt h count
  have hneed := s.bneed.isLt
  rw [BitVec.toNat_add]
  exact Nat.mod_eq_of_lt (by simp; omega)

/-- A PACK stream with a whole byte waiting has not popped all its bytes: the bits popped and waiting are no more than
N*W, or, once flushed, exactly 8*BNEED. -/
theorem bcount_ne_of_byteAvail (pack : s.bpMode = .pack) (ready : 8 ≤ s.accBits.toNat) : s.bcount ≠ s.bneed := by
  obtain ⟨-, -, -, unflushed, flushed⟩ := gear_pack h pack
  have hbits : s.vcount.toNat * s.w.toNat ≤ s.n.toNat * s.w.toNat := Nat.mul_le_mul_right _ h.values
  have hneed := h.need
  intro he
  rw [he] at unflushed flushed
  cases hf : s.flushed with
  | false =>
    have hbalance := unflushed hf
    omega
  | true =>
    have hbalance := (flushed hf).2.1
    omega

end

/-! The invariant under each change of the gearbox -/

theorem gearInv_of_sameGearbox {s t : State} (h : GearInv s) (same : SameGearbox s t) : GearInv t := by
  obtain ⟨hmode, hw, hn, hv, hb, hneed, hlimit, hacc, hbits, hended, hflushed⟩ := same
  exact
    { width := by rw [hw]; exact h.width
      room := by rw [hbits]; exact h.room
      clean := by rw [hacc, hbits]; exact h.clean
      values := by rw [hv, hn]; exact h.values
      bytes := by rw [hb, hneed]; exact h.bytes
      need := by rw [hneed, hn, hw]; exact h.need
      mode := by
        rw [hmode, hw, hn, hv, hb, hneed, hlimit, hbits, hended, hflushed]
        exact h.mode }

/-- An empty gearbox in OFF, as BP_STOP and reset leave it (R162). -/
theorem gearInv_stopStream (s : State) : GearInv (stopStream s) := by
  constructor <;> simp [State.reset]

theorem gearInv_resetElements (s : State) : GearInv (resetElements s) :=
  gearInv_of_sameGearbox (gearInv_stopStream s) ⟨rfl, rfl, rfl, rfl, rfl, rfl, rfl, rfl, rfl, rfl, rfl⟩

theorem gearInv_freshStream {m : BpMode} {w : BitVec 6} {n limit : Word} (s : State) (width : w.toNat ≤ 32)
    (mode : m = .pack ∧ limit = 0#32 ∨ m = .unpack) : GearInv (freshStream m w n limit s) where
  width := width
  room := by simp [State.reset]
  clean := by simp [State.reset]
  values := by simp [State.reset]
  bytes := by simp [State.reset]
  need := bytesNeeded_toNat n width
  mode := by
    obtain ⟨rfl, rfl⟩ | rfl := mode
    · simp [State.reset]
    · simp [State.reset]

variable {s u : State}

theorem gearInv_pushValue (effect : Effect s .bpPushValue u) (h : GearInv s) : GearInv u := by
  cases effect with
  | @bpPushValue v pack value count room =>
    obtain ⟨hlimit, hended, -, unflushed, flushed⟩ := gear_pack h pack
    have hw := h.width
    have hbits : (s.accBits + s.w).toNat = s.accBits.toNat + s.w.toNat := by
      rw [BitVec.toNat_add]
      exact Nat.mod_eq_of_lt (by omega)
    have hrunning : s.flushed = false := Bool.eq_false_iff.2 fun hf => count (flushed hf).1
    exact
      { width := h.width
        room := by dsimp only; omega
        clean := by
          dsimp only
          rw [hbits]
          exact accIn_lt h.clean (valueOperand_lt value) (by omega)
        values := by
          have hlt := vcount_lt h count
          dsimp only
          rw [vcount_succ h count]
          omega
        bytes := h.bytes
        need := h.need
        mode := by
          simp only [pack, hrunning, vcount_succ h count, hbits]
          have hbalance := unflushed hrunning
          exact ⟨hlimit, hended, by omega, fun _ => by rw [Nat.add_mul]; omega, nofun⟩ }

theorem gearInv_popByte (effect : Effect s .bpPopByte u) (h : GearInv s) : GearInv u := by
  cases effect with
  | bpPopByte pack ready =>
    obtain ⟨hlimit, hended, hroom, unflushed, flushed⟩ := gear_pack h pack
    have hbits : (s.accBits - 8#6).toNat = s.accBits.toNat - 8 := BitVec.toNat_sub_of_le ready
    have count := bcount_ne_of_byteAvail h pack ready
    have hlt := bcount_lt h count
    exact
      { width := h.width
        room := by dsimp only; omega
        clean := by
          dsimp only
          rw [hbits]
          exact acc_ushiftRight_lt h.clean ready
        values := h.values
        bytes := by
          dsimp only
          rw [bcount_succ h count]
          omega
        need := h.need
        mode := by
          simp only [pack, bcount_succ h count, hbits]
          refine ⟨hlimit, hended, by omega, fun hf => ?_, fun hf => ?_⟩
          · have hbalance := unflushed hf
            omega
          · obtain ⟨hall, hbalance, hlast⟩ := flushed hf
            exact ⟨hall, by omega, by omega⟩ }

/-- BP_FLUSH pads the bits waiting, if any, to one whole byte (R154). -/
theorem flushedBits_toNat (bits : BitVec 6) :
    bits.toNat = 0 ∧ (if bits = 0#6 then 0#6 else 8#6).toNat = 0 ∨
    0 < bits.toNat ∧ (if bits = 0#6 then 0#6 else 8#6).toNat = 8 := by
  split
  next h0 => exact .inl ⟨congrArg BitVec.toNat h0, rfl⟩
  next h0 => exact .inr ⟨Nat.pos_of_ne_zero fun h => h0 (BitVec.eq_of_toNat_eq h), rfl⟩

theorem gearInv_flush (effect : Effect s .bpFlush u) (h : GearInv s) : GearInv u := by
  cases effect with
  | bpFlush pack count room =>
    obtain ⟨hlimit, hended, -, unflushed, flushed⟩ := gear_pack h pack
    have hneed := h.need
    have hbits := flushedBits_toNat s.accBits
    generalize (if s.accBits = 0#6 then 0#6 else 8#6) = bits at hbits ⊢
    have hbalance : 8 * s.bcount.toNat + bits.toNat = 8 * s.bneed.toNat := by
      cases hf : s.flushed with
      | false =>
        have hopen := unflushed hf
        rw [count] at hopen
        omega
      | true =>
        have hdone := (flushed hf).2.1
        omega
    exact
      { width := h.width
        room := by dsimp only; omega
        clean := h.clean.trans_le (Nat.pow_le_pow_right (by decide) (by dsimp only; omega))
        values := h.values
        bytes := h.bytes
        need := h.need
        mode := by
          simp only [pack]
          exact ⟨hlimit, hended, by omega, nofun, fun _ => ⟨count, hbalance, by omega⟩⟩ }

theorem gearInv_pushByte (effect : Effect s .bpPushByte u) (h : GearInv s) : GearInv u := by
  cases effect with
  | @bpPushByte b unpack running byte count room =>
    obtain ⟨hflushed, hbalance⟩ := gear_unpack h unpack
    have hlt := bcount_lt h count
    have hbits : (s.accBits + 8#6).toNat = s.accBits.toNat + 8 := by
      rw [BitVec.toNat_add]
      exact Nat.mod_eq_of_lt (by simp; omega)
    have hbyte : (b.setWidth 32).toNat < 2 ^ 8 := by
      have hb := b.isLt
      rw [BitVec.toNat_setWidth]
      omega
    exact
      { width := h.width
        room := by dsimp only; omega
        clean := by
          dsimp only
          rw [hbits]
          exact accIn_lt h.clean hbyte (by omega)
        values := h.values
        bytes := by
          dsimp only
          rw [bcount_succ h count]
          omega
        need := h.need
        mode := by
          simp only [unpack, bcount_succ h count, hbits]
          exact ⟨hflushed, by omega⟩ }

theorem gearInv_popValue (effect : Effect s .bpPopValue u) (h : GearInv s) : GearInv u := by
  cases effect with
  | bpPopValue unpack count ready bound =>
    obtain ⟨hflushed, hbalance⟩ := gear_unpack h unpack
    have hroom := h.room
    have hlt := vcount_lt h count
    have hbits : (s.accBits - s.w).toNat = s.accBits.toNat - s.w.toNat := BitVec.toNat_sub_of_le ready
    exact
      { width := h.width
        room := by dsimp only; omega
        clean := by
          dsimp only
          rw [hbits]
          exact acc_ushiftRight_lt h.clean ready
        values := by
          dsimp only
          rw [vcount_succ h count]
          omega
        bytes := h.bytes
        need := h.need
        mode := by
          simp only [unpack, vcount_succ h count, hbits]
          exact ⟨hflushed, by rw [Nat.add_mul]; omega⟩ }

theorem gearInv_end (effect : Effect s .bpEnd u) (h : GearInv s) : GearInv u := by
  cases effect with
  | bpEnd unpack =>
    exact
      { width := h.width
        room := h.room
        clean := h.clean
        values := h.values
        bytes := h.bytes
        need := h.need
        mode := by simpa only [unpack] using gear_unpack h unpack }

/-- Every effect keeps the gearbox part. -/
theorem effect_keeps_gearInv {i : Instr} (effect : Effect s i u) (h : GearInv s) : GearInv u := by
  cases i with
  | reset =>
    cases effect
    exact gearInv_resetElements s
  | bpCfgPack =>
    cases effect with
    | bpCfgPack width => exact gearInv_freshStream s (widthOperand_le width) (.inl ⟨rfl, rfl⟩)
  | bpCfgUnpack =>
    cases effect with
    | bpCfgUnpack width => exact gearInv_freshStream s (widthOperand_le width) (.inr rfl)
  | bpPushValue => exact gearInv_pushValue effect h
  | bpPopByte => exact gearInv_popByte effect h
  | bpFlush => exact gearInv_flush effect h
  | bpPushByte => exact gearInv_pushByte effect h
  | bpPopValue => exact gearInv_popValue effect h
  | bpEnd => exact gearInv_end effect h
  | bpStop =>
    cases effect
    exact gearInv_stopStream s
  | _ =>
    cases effect <;> exact gearInv_of_sameGearbox h ⟨rfl, rfl, rfl, rfl, rfl, rfl, rfl, rfl, rfl, rfl, rfl⟩

end Sys2Proof.Proofs
end

section
/-! The invariant of a run over commands and steps (10_state.md R14, R25 to R42; 60_exceptions.md R212). -/

namespace Sys2Proof.Proofs

open Sys2Proof.Machine

/-! Commands -/

section

variable {i : Instr} {s t : State}

theorem sameGearbox_report (c : StatusCode) (s : State) : SameGearbox s (report c s) := by
  simp [SameGearbox]

theorem exec_keeps_gearInv (h : GearInv s) (he : exec i s = .next t) : GearInv t := by
  obtain ⟨c, -, -, rfl⟩ | ⟨u, effect, rfl⟩ := exec_inversion he
  · exact gearInv_of_sameGearbox h (sameGearbox_report c s)
  · exact gearInv_of_sameGearbox (effect_keeps_gearInv effect h)
      ⟨rfl, rfl, rfl, rfl, rfl, rfl, rfl, rfl, rfl, rfl, rfl⟩

theorem paletteInv_report {cap : Nat} (h : PaletteInv cap s) (c : StatusCode) : PaletteInv cap (report c s) :=
  paletteInv_of_eq h (report_pal c s) (report_pcount c s) (report_pbState c s) (report_iwidth c s)

theorem exec_keeps_paletteInv (h : PaletteInv Config.palCap s) (he : exec i s = .next t) :
    PaletteInv Config.palCap t := by
  obtain ⟨c, -, -, rfl⟩ | ⟨u, effect, rfl⟩ := exec_inversion he
  · exact paletteInv_report h c
  · exact paletteInv_of_eq (effect_keeps_paletteInv effect h) rfl rfl rfl rfl

/-- A report keeps the report part: an error sets ERR and finds or leaves an error code in FIRSTERR, and a hold touches
neither (60_exceptions.md R203). -/
theorem reportInv_report {c : StatusCode} (h : ReportInv s) (hc : c ≠ .ok) : ReportInv (report c s) := by
  obtain ⟨hrecord, hleave⟩ := report_sticky c s
  by_cases herror : codeClass c = .error
  · obtain ⟨herr, hfirst⟩ := hrecord herror
    refine ⟨?sticky, ?noHold, fun _ => herr⟩
    case sticky =>
      rw [herr, hfirst]
      split
      next => simpa using hc
      next hne => simpa using hne
    case noHold =>
      rw [hfirst]
      split
      next => simp [herror]
      next => exact h.noHold
  · obtain ⟨herr, hfirst⟩ := hleave herror
    refine ⟨?_, ?_, fun hlast => absurd (report_lastCode c s ▸ hlast) herror⟩
    · rw [herr, hfirst]
      exact h.sticky
    · rw [hfirst]
      exact h.noHold

/-- A report in which no error is recorded. -/
theorem reportInv_of_clear (herr : t.err = false) (hfirst : t.firstErr = .ok) (hlast : t.lastCode = .ok) :
    ReportInv t := by
  constructor <;> simp [herr, hfirst, hlast, codeClass]

theorem exec_keeps_reportInv (h : ReportInv s) (he : exec i s = .next t) : ReportInv t := by
  obtain ⟨c, listed, -, rfl⟩ | ⟨u, effect, rfl⟩ := exec_inversion he
  · exact reportInv_report h (ne_ok_of_mem_raisedBy listed)
  by_cases hclr : i = .clrerr
  · subst hclr
    cases effect
    exact reportInv_of_clear rfl rfl rfl
  by_cases hrst : i = .reset
  · subst hrst
    cases effect
    exact reportInv_of_clear rfl rfl rfl
  · obtain ⟨herr, hfirst⟩ := effect_report_frame effect hclr hrst
    refine ⟨?_, ?_, fun hok => by simp [codeClass] at hok⟩
    · simpa [herr, hfirst] using h.sticky
    · simpa [hfirst] using h.noHold

theorem runInv_of_eq (h : RunInv s) (hfault : t.busFault = s.busFault) (hresponses : t.responses = s.responses) :
    RunInv t :=
  ⟨by rw [hfault, hresponses]; exact h.fault⟩

theorem exec_keeps_machineInv (h : MachineInv s) (he : exec i s = .next t) : MachineInv t := by
  obtain ⟨-, hresponses, hfault⟩ := exec_run_frame he
  exact
    { palette := exec_keeps_paletteInv h.palette he
      gear := exec_keeps_gearInv h.gear he
      report := exec_keeps_reportInv h.report he
      run := runInv_of_eq h.run hfault hresponses }

theorem command_keeps_machineInv {cw : Word} (h : MachineInv s) (hc : command cw s = .next t) : MachineInv t := by
  obtain ⟨-, rfl⟩ | ⟨i, -, he⟩ := command_inversion hc
  · exact
      { palette := paletteInv_report h.palette _
        gear := gearInv_of_sameGearbox h.gear (sameGearbox_report _ s)
        report := reportInv_report h.report (by decide)
        run := runInv_of_eq h.run (report_busFault _ s) (report_responses _ s) }
  · exact exec_keeps_machineInv h he

end

/-! Host events -/

/-- An update of the ARG registers and of the run's record keeps all of the invariant but its run part. -/
theorem machineInv_of_run {s t : State} (h : MachineInv s)
    (ht : t = { s with
      pending := t.pending, responses := t.responses, busFault := t.busFault
      arg0 := t.arg0, arg1 := t.arg1, arg2 := t.arg2 })
    (hrun : RunInv t) : MachineInv t := by
  refine ⟨?palette, ?gear, ?report, hrun⟩
  case palette =>
    rw [ht]
    exact paletteInv_of_eq h.palette rfl rfl rfl rfl
  case gear =>
    rw [ht]
    exact gearInv_of_sameGearbox h.gear ⟨rfl, rfl, rfl, rfl, rfl, rfl, rfl, rfl, rfl, rfl, rfl⟩
  case report =>
    rw [ht]
    exact ⟨h.report.sticky, h.report.noHold, h.report.recorded⟩

/-- An answer that is no bus error keeps the fault record (R212). -/
theorem runInv_answer {s t : State} (h : RunInv s) {r : Response} (hr : r ≠ .busError)
    (hfault : t.busFault = s.busFault) (hresponses : t.responses = s.responses ++ [r]) : RunInv t := by
  refine ⟨?_⟩
  rw [hfault, hresponses, h.fault]
  simp [hr.symm]

/-- A bus error is recorded both as an answer and in the fault bit (R212). -/
theorem runInv_busError (s : State) : RunInv (busError s) := by
  constructor
  simp

/-- Every element at its reset value meets the palette, gearbox and report parts; the run's record is kept. -/
theorem machineInv_resetElements {s : State} (h : RunInv s) : MachineInv (resetElements s) where
  palette := paletteInv_of_eq (paletteInv_reset _) rfl rfl rfl rfl
  gear := gearInv_resetElements s
  report := reportInv_of_clear rfl rfl rfl
  run := runInv_of_eq h rfl rfl

/-- Settles O58: reset is resetElements of itself, with an empty record. -/
theorem resetMeetsInvariant : Obligations.ResetMeetsInvariant :=
  machineInv_resetElements (s := State.reset) ⟨by decide⟩

/-- Settles O59: an idle step, an answered read, a performed write, a bus error and the reset input each keep all four
parts of the invariant. -/
theorem stepKeepsInvariant : Obligations.StepKeepsInvariant := by
  intro s t hinv h
  obtain ⟨-, hs⟩ | ⟨_, off, rest, -, -, hs⟩ | ⟨_, off, v, rest, -, -, hs⟩ | ⟨_, rest, -, -, hs⟩ | ⟨rest, -, hs⟩ :=
    step_cases s
  · cases hs.symm.trans h
    exact hinv
  · cases hs.symm.trans h
    exact machineInv_of_run hinv rfl (runInv_answer hinv.run (r := .data (portRead off s)) nofun rfl rfl)
  · rw [hs] at h
    have hanswered : MachineInv (answer .done { s with pending := rest }) :=
      machineInv_of_run hinv rfl (runInv_answer hinv.run (r := .done) nofun rfl rfl)
    obtain ⟨-, hw⟩ | ⟨-, hw⟩ | ⟨-, hw⟩ | ⟨-, hw⟩ | ⟨-, hw⟩ :=
      portWrite_cases off v (answer .done { s with pending := rest })
    · exact command_keeps_machineInv hanswered (hw.symm.trans h)
    all_goals
      cases hw.symm.trans h
      exact machineInv_of_run hanswered rfl (runInv_of_eq hanswered.run rfl rfl)
  · cases hs.symm.trans h
    exact machineInv_of_run hinv rfl (runInv_busError _)
  · cases hs.symm.trans h
    exact machineInv_resetElements (runInv_of_eq hinv.run rfl rfl)

/-- Settles O60: the invariant's ascending order, between neighbours. -/
theorem paletteStaysAscending : Obligations.PaletteStaysAscending := by
  intro s t hinv h i hi
  have hnext := stepKeepsInvariant s t hinv h
  exact (ascending_iff t).1 hnext.palette.ascending i (i + 1) i.lt_succ_self hi

/-! The stream counters -/

/-- VCOUNT and BCOUNT over the commands that name neither (R38). -/
theorem exec_counters_frame {i : Instr} {s t : State} (h : exec i s = .next t)
    (hi : i ∉ [Instr.bpPushValue, .bpPopValue, .bpPopByte, .bpPushByte, .bpCfgPack, .bpCfgUnpack, .bpStop, .reset]) :
    t.vcount = s.vcount ∧ t.bcount = s.bcount := by
  obtain ⟨c, -, -, rfl⟩ | ⟨u, effect, rfl⟩ := exec_inversion h
  · simp
  · cases effect <;> simp at hi ⊢

/-- Settles O23: the counters by each effect, with the room the gearbox invariant gives them, and the frame. -/
theorem streamCountersMoveByOne : Obligations.StreamCountersMoveByOne := by
  intro i s t hinv h
  have hnext := exec_keeps_gearInv hinv h
  refine ⟨fun hi hok => ?values, fun hi hok => ?bytes, fun hi hok => ?cleared, ?frame, hnext.values, hnext.bytes⟩
  case values =>
    obtain ⟨u, effect, rfl⟩ := exec_succeeded h hok
    cases effect with
    | bpPushValue pack value count room => exact ⟨vcount_succ hinv count, rfl⟩
    | bpPopValue unpack count ready bound => exact ⟨vcount_succ hinv count, rfl⟩
    | _ => simp at hi
  case bytes =>
    obtain ⟨u, effect, rfl⟩ := exec_succeeded h hok
    cases effect with
    | bpPopByte pack ready => exact ⟨bcount_succ hinv (bcount_ne_of_byteAvail hinv pack ready), rfl⟩
    | bpPushByte unpack running byte count room => exact ⟨bcount_succ hinv count, rfl⟩
    | _ => simp at hi
  case cleared =>
    obtain ⟨u, effect, rfl⟩ := exec_succeeded h hok
    cases effect with
    | bpCfgPack => exact ⟨rfl, rfl⟩
    | bpCfgUnpack => exact ⟨rfl, rfl⟩
    | bpStop => exact ⟨rfl, rfl⟩
    | reset => exact ⟨rfl, rfl⟩
    | _ => simp at hi
  case frame =>
    rintro (hi | hfail)
    · exact exec_counters_frame h hi
    · rw [exec_failed h hfail, report_vcount, report_bcount]
      exact ⟨rfl, rfl⟩

end Sys2Proof.Proofs
end

section
/-! The accesses the port refuses (20_memory.md R62, R63; 60_exceptions.md R212). -/

namespace Sys2Proof.Proofs

open Sys2Proof.Machine

/-- A read or a write the port does not perform is answered by the bus error, whatever its offset (R63). -/
theorem step_refused {s : State} {e : HostEvent} {rest : List HostEvent} (hp : s.pending = e :: rest)
    (he : e.wellFormed = false) : step s = .next (busError { s with pending := rest }) := by
  rw [step_of_pending hp]
  cases e with
  | read size off => simp [hostEvent, performs_read, he]
  | write size off v => simp [hostEvent, performs_write size off v, he]
  | hwReset => cases he

theorem performs_eq_false_iff (size : Nat) (off : Offset) :
    performs size off = false ↔ size ≠ 4 ∨ off.toNat % 4 ≠ 0 := by
  rw [← Bool.not_eq_true, performs_iff, not_and_or]

/-- Settles O9: a read and a write that the port refuses are each answered by the bus error alone. -/
theorem refusedAccessesOnlyRecordABusFault : Obligations.RefusedAccessesOnlyRecordABusFault := by
  intro s size off v rest hbad hp
  have hrefused : performs size off = false := (performs_eq_false_iff size off).2 hbad
  obtain hp | hp := hp
  · exact step_refused hp ((performs_read size off).symm.trans hrefused)
  · exact step_refused hp ((performs_write size off v).symm.trans hrefused)

end Sys2Proof.Proofs
end

section
/-! The bit order of the packed stream (20_memory.md R65, 44_bit_packer.md R150). -/

namespace Sys2Proof.Proofs

open Sys2Proof.Machine

@[simp] theorem packBytes_length (w : Nat) (vs : List Nat) : (packBytes w vs).length = (vs.length * w + 7) / 8 := by
  simp [packBytes]

/-- Value i of width w occupies the stream bits from i*w, its bit 0 first. -/
theorem streamInt_testBit {w b : Nat} (hb : b < w) {vs : List Nat} (fit : ∀ v ∈ vs, v < 2 ^ w) (i : Nat) :
    (streamInt w vs).testBit (i * w + b) = (vs.getD i 0).testBit b := by
  induction vs generalizing i with
  | nil => simp [streamInt]
  | cons v vs ih =>
    have hv : v < 2 ^ w := fit v (by simp)
    rw [streamInt, Nat.add_comm v, Nat.testBit_two_pow_mul_add _ hv]
    cases i with
    | zero => simp [hb]
    | succ i =>
      have hpos : (i + 1) * w + b = w + (i * w + b) := by ring
      simp [hpos, ih (fun u hu => fit u (by simp [hu])) i]

/-- No stream bit past the last value is set. -/
theorem streamInt_testBit_past {w : Nat} {vs : List Nat} (fit : ∀ v ∈ vs, v < 2 ^ w) {j : Nat}
    (hj : vs.length * w ≤ j) : (streamInt w vs).testBit j = false :=
  Nat.testBit_eq_false_of_lt ((streamInt_lt w vs fit).trans_le (Nat.pow_le_pow_right (by decide) hj))

/-- Stream bit j is bit j mod 8 of byte j div 8; beyond the last byte both read 0. -/
theorem packBytes_testBit {w : Nat} {vs : List Nat} (fit : ∀ v ∈ vs, v < 2 ^ w) (j : Nat) :
    ((packBytes w vs).getD (j / 8) 0).testBit (j % 8) = (streamInt w vs).testBit j := by
  by_cases hj : j / 8 < (packBytes w vs).length
  · have hbyte : (packBytes w vs)[j / 8] = streamInt w vs / 2 ^ (8 * (j / 8)) % 2 ^ 8 := by simp [packBytes]
    rw [List.getD_eq_getElem _ _ hj, hbyte, Nat.testBit_mod_two_pow, Nat.testBit_div_two_pow, Nat.mod_add_div]
    simp [Nat.mod_lt]
  · have hpast : vs.length * w ≤ j := by
      rw [packBytes_length] at hj
      omega
    rw [List.getD_eq_default _ _ (Nat.le_of_not_lt hj), streamInt_testBit_past fit hpast, Nat.zero_testBit]

/-- Settles O51: each bit of the bytes is a bit of the stream integer, and there a bit of a value or padding. -/
theorem packedBitOrder : Obligations.PackedBitOrder := fun w vs fit =>
  ⟨packBytes_length w vs,
    fun i b _ hb => (packBytes_testBit fit (i * w + b)).trans (streamInt_testBit hb fit i),
    fun j hj => (packBytes_testBit fit j).trans (streamInt_testBit_past fit hj)⟩

end Sys2Proof.Proofs
end

section
/-! The command word (30_encoding.md R80 to R83): its fields as numbers, the opcode map as the commands' opcodes, and the
decoder over both. -/

namespace Sys2Proof.Proofs

open Sys2Proof.Machine

/-! The fields (R80) -/

theorem opField_toNat (cw : Word) : (opField cw).toNat = cw.toNat % 256 := by
  simp [opField]

theorem rsvField_toNat (cw : Word) : (rsvField cw).toNat = cw.toNat / 256 := by
  have hcw := cw.isLt
  rw [rsvField, BitVec.extractLsb'_toNat, Nat.shiftRight_eq_div_pow]
  omega

theorem rsvField_eq_zero_iff (cw : Word) : rsvField cw = 0#24 ↔ cw.toNat / 256 = 0 := by
  rw [← BitVec.toNat_inj, rsvField_toNat, BitVec.toNat_ofNat, Nat.zero_mod]

theorem encode_toNat (i : Instr) : (encode i).toNat = (opcode i).toNat :=
  BitVec.toNat_setWidth_of_le (by decide)

/-- RSV and OP are the whole word: it is a command's word when RSV is zero and OP the command's opcode. -/
theorem eq_encode_iff (cw : Word) (i : Instr) : cw = encode i ↔ rsvField cw = 0#24 ∧ opField cw = opcode i := by
  have hop := (opcode i).isLt
  rw [rsvField_eq_zero_iff, ← BitVec.toNat_inj, ← BitVec.toNat_inj, opField_toNat, encode_toNat]
  omega

/-! The opcode map (R82) -/

/-- Each row of the map pairs a command with the opcode its own rule gives. -/
theorem opcodeMap_rows : ∀ row ∈ opcodeMap, row.1 = opcode row.2 := by decide

theorem opcodeMap_lookup_opcode (i : Instr) : opcodeMap.lookup (opcode i) = some i := by
  cases i <;> rfl

theorem opcodeMap_lookup_eq_some_iff (op : BitVec 8) (i : Instr) : opcodeMap.lookup op = some i ↔ op = opcode i := by
  constructor
  · intro h
    obtain ⟨before, after, hrows, -⟩ := List.lookup_eq_some_iff.1 h
    exact opcodeMap_rows (op, i) (by simp [hrows])
  · rintro rfl
    exact opcodeMap_lookup_opcode i

/-- The reserved opcodes: the seven ranges that R83 lists. -/
def ReservedOpcode (n : Nat) : Prop :=
  (0x03 ≤ n ∧ n ≤ 0x0F) ∨ (0x11 ≤ n ∧ n ≤ 0x1F) ∨ (0x25 ≤ n ∧ n ≤ 0x2F) ∨ (0x31 ≤ n ∧ n ≤ 0x3F) ∨
  (0x44 ≤ n ∧ n ≤ 0x47) ∨ (0x4C ≤ n ∧ n ≤ 0x4E) ∨ 0x50 ≤ n

/-- The reserved ranges are the gaps of the map: an opcode in none of them is a row's. -/
theorem opcodeMap_lookup_eq_none_iff (op : BitVec 8) : opcodeMap.lookup op = none ↔ ReservedOpcode op.toNat := by
  have hrows : opcodeMap.lookup op = none ↔ ∀ n ∈ opcodeMap.map fun row => row.1.toNat, op.toNat ≠ n := by
    rw [List.forall_mem_map]
    simp [List.lookup_eq_none_iff, BitVec.toNat_inj]
  have hopcodes : (opcodeMap.map fun row => row.1.toNat) =
      [0x00, 0x01, 0x02, 0x10, 0x20, 0x21, 0x22, 0x23, 0x24, 0x30, 0x40, 0x41, 0x42, 0x43, 0x48, 0x49, 0x4A, 0x4B, 0x4F] :=
    rfl
  simp only [hrows, hopcodes, List.forall_mem_cons, List.not_mem_nil, false_imp_iff, implies_true, and_true,
    ReservedOpcode]
  omega

/-! The decoder (R81, R83) -/

theorem decode_eq_ok_iff (cw : Word) (i : Instr) :
    decode cw = .ok i ↔ rsvField cw = 0#24 ∧ opcodeMap.lookup (opField cw) = some i := by
  unfold decode
  split_ifs with hrsv
  · simp [hrsv]
  · cases opcodeMap.lookup (opField cw) <;> simp [not_not.1 hrsv]

theorem decode_illegal_iff (cw : Word) :
    (∃ e, decode cw = .error e) ↔ rsvField cw ≠ 0#24 ∨ opcodeMap.lookup (opField cw) = none := by
  unfold decode
  split_ifs with hrsv
  · simp [hrsv]
  · cases opcodeMap.lookup (opField cw) <;> simp [not_not.1 hrsv]

/-- Settles O1: decoding to i and being i's word are each RSV zero and OP the opcode of i. -/
theorem decodeIsInverseOfEncode : Obligations.DecodeIsInverseOfEncode := fun cw i => by
  rw [decode_eq_ok_iff, opcodeMap_lookup_eq_some_iff, eq_encode_iff]

/-- Settles O2: the decoded words, one by one. -/
theorem commandWordsDecode : Obligations.CommandWordsDecode :=
  ⟨decode_nop, decode_clrerr, decode_reset, decode_cccCmp, decode_pbClear, decode_pbInsert, decode_pbSeal,
    decode_pbLookup, decode_pbRead, decode_iwcCalc, decode_bpCfgPack, decode_bpPushValue, decode_bpPopByte,
    decode_bpFlush, decode_bpCfgUnpack, decode_bpPushByte, decode_bpPopValue, decode_bpEnd, decode_bpStop⟩

/-- A word is illegal when RSV is not zero or OP is reserved, and in no other case (R83). -/
theorem decode_illegal_iff_toNat (cw : Word) :
    (∃ e, decode cw = .error e) ↔ cw.toNat / 256 ≠ 0 ∨ ReservedOpcode (cw.toNat % 256) := by
  rw [decode_illegal_iff, Ne, rsvField_eq_zero_iff, opcodeMap_lookup_eq_none_iff, opField_toNat]

/-- A report is all that a raise does (60_exceptions.md R203). -/
theorem reportsOnly_report (c : StatusCode) (s : State) : ReportsOnly c s (.next (report c s)) := by
  unfold ReportsOnly report
  split <;> simp [*]

/-- Settles O3: the reserved words are those the decoder refuses, and each only raises E_ILLEGAL_CMD. -/
theorem illegalCommandWords : Obligations.IllegalCommandWords := by
  intro cw s
  refine ⟨decode_illegal_iff_toNat cw, ?_⟩
  rintro ⟨e, he⟩
  rw [command_illegal he]
  exact reportsOnly_report .eIllegalCmd s

/-! Steps and host-program lines (R14, R66, R81, R86) -/

/-- Settles O4: the idle step, and the command of a word written to CMD. -/
theorem stepRunsDecodedCommand : Obligations.StepRunsDecodedCommand := fun s =>
  ⟨fun hp => by simp only [step, hp],
    fun _ _ _ hp hd => (step_command hp).trans (command_legal hd _),
    fun _ _ _ hp hd => (step_command hp).trans (command_illegal hd _)⟩

/-- Settles O14: the transaction of each line, and each named register at its own offset. -/
theorem hostProgramLines : Obligations.HostProgramLines :=
  ⟨fun _ => rfl, fun r _ => ⟨rfl, regAt_regOffset r⟩, fun _ _ => rfl, fun _ => rfl, fun _ => rfl⟩

end Sys2Proof.Proofs
end

section
/-! Colour operands: bits 31:24 of ARG0 and ARG1 take no part in a colour command (30_encoding.md R85). -/

namespace Sys2Proof.Proofs

open Sys2Proof.Machine

/-- The state with other words in ARG0 and ARG1. -/
def withColours (a b : Word) (s : State) : State := { s with arg0 := a, arg1 := b }

/-- The key of a colour operand is its bits 23:0 (41_comparator.md R110). -/
theorem keyOperand_eq_iff (a b : Word) : keyOperand a = keyOperand b ↔ a.toNat % 2 ^ 24 = b.toNat % 2 ^ 24 := by
  simp [keyOperand, ← BitVec.toNat_inj]

@[simp] theorem withColours_arg0 (a b : Word) (s : State) : (withColours a b s).arg0 = a := rfl
@[simp] theorem withColours_arg1 (a b : Word) (s : State) : (withColours a b s).arg1 = b := rfl
@[simp] theorem withColours_pbState (a b : Word) (s : State) : (withColours a b s).pbState = s.pbState := rfl
@[simp] theorem withColours_pcount (a b : Word) (s : State) : (withColours a b s).pcount = s.pcount := rfl

/-- A report neither reads nor writes the ARG registers. -/
theorem report_withColours (c : StatusCode) (a b : Word) (s : State) :
    report c (withColours a b s) = withColours a b (report c s) := by
  simp only [report, withColours]
  split <;> rfl

/-- The palette is searched by key and not by the ARG registers (42_palette_builder.md R120). -/
@[simp] theorem palPresent_withColours (a b : Word) (s : State) (k : Key) :
    palPresent (withColours a b s) k = palPresent s k := rfl

section

variable {a b : Word} {s t : State}

theorem cccCmp_withColours (ha : keyOperand a = keyOperand s.arg0) (hb : keyOperand b = keyOperand s.arg1)
    (h : exec .cccCmp s = .next t) : exec .cccCmp (withColours a b s) = .next (withColours a b t) := by
  simp only [exec, execCccCmp, withColours_arg0, withColours_arg1, ha, hb] at h ⊢
  cases h
  rfl

theorem pbInsert_withColours (ha : keyOperand a = keyOperand s.arg0) (h : exec .pbInsert s = .next t) :
    exec .pbInsert (withColours a b s) = .next (withColours a b t) := by
  simp only [exec, execPbInsert, insertColour, withColours_arg0, withColours_pbState, withColours_pcount,
    palPresent_withColours, ha] at h ⊢
  split_ifs at h ⊢ with building present full
  · cases h
    exact congrArg _ (report_withColours .eBadState a b s)
  · cases h
    rfl
  · cases h
    exact congrArg _ (report_withColours .ePaletteOverflow a b s)
  · cases h
    rfl

theorem pbLookup_withColours (ha : keyOperand a = keyOperand s.arg0) (h : exec .pbLookup s = .next t) :
    exec .pbLookup (withColours a b s) = .next (withColours a b t) := by
  simp only [exec, execPbLookup, withColours_arg0, withColours_pbState, palPresent_withColours, ha] at h ⊢
  split_ifs at h ⊢ with sealed present
  · cases h
    exact congrArg _ (report_withColours .eBadState a b s)
  · cases h
    rfl
  · cases h
    exact congrArg _ (report_withColours .eNotFound a b s)

end

/-- Settles O30: each colour command reads its operands' keys alone, and equal bits 23:0 are equal keys. -/
theorem alphaIsIgnored : Obligations.AlphaIsIgnored := by
  intro i s a b hi ha hb
  have ha : keyOperand a = keyOperand s.arg0 := (keyOperand_eq_iff _ _).2 ha
  have hb : keyOperand b = keyOperand s.arg1 := (keyOperand_eq_iff _ _).2 hb
  obtain ⟨t, ht, -⟩ := exec_cases i s
  refine ⟨t, ht, ?_⟩
  simp only [List.mem_cons, List.not_mem_nil, or_false] at hi
  obtain rfl | rfl | rfl := hi
  · exact cccCmp_withColours ha hb ht
  · exact pbInsert_withColours ha ht
  · exact pbLookup_withColours ha ht

end Sys2Proof.Proofs
end

section
/-! The control commands that cannot fail, NOP and CLRERR (40_control.md R100, R101). -/

namespace Sys2Proof.Proofs

open Sys2Proof.Machine

/-- NOP is a success with no effect of its own (R100). -/
theorem exec_nop (s : State) : exec .nop s = succeed s := rfl

/-- CLRERR is a success whose effect is to clear the sticky report (R101). -/
theorem exec_clrerr (s : State) : exec .clrerr s = succeed { s with err := false, firstErr := .ok } := rfl

/-- Settles O26: LASTCODE is what a success sets by itself, and the sticky report is CLRERR's own effect. -/
theorem nopAndClearErrors : Obligations.NopAndClearErrors := by
  refine ⟨decode_nop, decode_clrerr, fun s => ⟨?nop, ?clrerr⟩⟩
  case nop => rw [exec_nop, succeed_eq, success]
  case clrerr => rw [exec_clrerr, succeed_eq, success]

end Sys2Proof.Proofs
end

section
/-! The canonical key and its order (41_comparator.md R110, R111). A key and its colour word are one number, below 2^24, so
color() of the key taken as a word undoes the key. -/

namespace Sys2Proof.Proofs

open Sys2Proof.Machine

/-- The sum of the channels fits in 24 bits, so the key holds all of it (R110). -/
theorem colourKey_toNat (c : Colour) : (colourKey c).toNat = c.r.toNat * 65536 + c.g.toNat * 256 + c.b.toNat := by
  rw [colourKey, BitVec.toNat_ofNat]
  exact Nat.mod_eq_of_lt (channelSum_lt c)

theorem keyOperand_toNat (c : Word) : (keyOperand c).toNat = c.toNat % 2 ^ 24 := by
  simp [keyOperand]

/-- Bits 23:0 of a colour word are the key of its colour: its channels are the base 256 digits of those bits (R110). -/
theorem keyOperand_eq_colourKey (c : Word) : keyOperand c = colourKey (colourOf c) := by
  apply BitVec.eq_of_toNat_eq
  rw [keyOperand_toNat, colourKey_toNat, colourOf_r_toNat, colourOf_g_toNat, colourOf_b_toNat]
  omega

/-- Settles O28: the key's sum does not wrap, and the channels of a colour word add up to its bits 23:0. -/
theorem canonicalKey : Obligations.CanonicalKey :=
  ⟨colourKey_toNat, fun c => ⟨keyOperand_eq_colourKey c, by rw [← keyOperand_eq_colourKey, keyOperand_toNat]⟩⟩

/-- The colour of a key: color() of the key as a colour word with bits 31:24 zero (R111). -/
def colourOfKey (k : Key) : Colour := colourOf (k.setWidth 32)

theorem setWidth_colourKey (c : Colour) : (colourKey c).setWidth 32 = colourWord c := by
  apply BitVec.eq_of_toNat_eq
  rw [BitVec.toNat_setWidth_of_le (by decide)]
  exact (colourKey_toNat c).trans (colourWord_toNat c).symm

theorem colourOfKey_colourKey (c : Colour) : colourOfKey (colourKey c) = c := by
  rw [colourOfKey, setWidth_colourKey, colourOf_colourWord]

theorem colourKey_colourOfKey (k : Key) : colourKey (colourOfKey k) = k := by
  rw [colourOfKey, ← keyOperand_eq_colourKey]
  apply BitVec.eq_of_toNat_eq
  rw [keyOperand_toNat, BitVec.toNat_setWidth_of_le (by decide), Nat.mod_eq_of_lt k.isLt]

theorem colourKey_injective : Function.Injective colourKey :=
  Function.LeftInverse.injective colourOfKey_colourKey

/-- Each channel outweighs all that stands below it, so keys compare as (r, g, b) does (R111). -/
theorem colourKey_lt_iff (a b : Colour) :
    colourKey a < colourKey b ↔ a.r < b.r ∨ (a.r = b.r ∧ (a.g < b.g ∨ (a.g = b.g ∧ a.b < b.b))) := by
  have hag := a.g.isLt
  have hab := a.b.isLt
  have hbg := b.g.isLt
  have hbb := b.b.isLt
  simp only [BitVec.lt_def, ← BitVec.toNat_inj, colourKey_toNat]
  omega

/-- Settles O29: colourOfKey inverts the key, and colours inherit the order of numbers along it. -/
theorem keyOrder : Obligations.KeyOrder := by
  refine ⟨fun k => ⟨colourOfKey k, colourKey_colourOfKey k⟩, fun _ _ => colourKey_injective.eq_iff, colourKey_lt_iff,
    ?total, fun _ _ _ => BitVec.lt_trans, fun a => BitVec.lt_irrefl (colourKey a)⟩
  case total =>
    intro a b
    rw [← colourKey_injective.eq_iff (a := a), ← BitVec.toNat_inj]
    exact Nat.lt_trichotomy (colourKey a).toNat (colourKey b).toNat

end Sys2Proof.Proofs
end

section
/-! The comparator (41_comparator.md R112). -/

namespace Sys2Proof.Proofs

open Sys2Proof.Machine

/-- CCC_CMP is a success whose effect is its two results (R112). -/
theorem exec_cccCmp (s : State) :
    exec .cccCmp s = succeed { s with
      res0 := orderCode (keyOperand s.arg0) (keyOperand s.arg1)
      res1 := (keyOperand s.arg0).setWidth 32 } := rfl

/-- The comparator compares keys as numbers. -/
theorem orderCode_eq_toNat (ka kb : Key) :
    orderCode ka kb = if ka.toNat < kb.toNat then 1#32 else if ka.toNat = kb.toNat then 2#32 else 4#32 := by
  simp only [orderCode, BitVec.lt_def, BitVec.toNat_inj]

/-- Settles O31: the operands' keys are their colours' keys, compared as numbers, and nothing is checked. -/
theorem compareColours : Obligations.CompareColours := by
  refine ⟨decode_cccCmp, ?_⟩
  rintro s ka kb rfl rfl
  rw [exec_cccCmp, succeed_eq, success, orderCode_eq_toNat, keyOperand_eq_colourKey, keyOperand_eq_colourKey,
    BitVec.ofNat_toNat]

end Sys2Proof.Proofs
end

section
/-! The units' states are apart (41_comparator.md R112; 42_palette_builder.md R121 to R127; 43_index_width.md R141;
44_bit_packer.md R162). -/

namespace Sys2Proof.Proofs

open Sys2Proof.Machine

theorem exec_samePalette {i : Instr} {s t : State} (h : exec i s = .next t)
    (hi : i ∉ [Instr.reset, .pbClear, .pbInsert, .pbSeal]) : SamePalette s t := by
  obtain ⟨hpal, hpcount, hpbState, hiwidth⟩ := exec_palette_frame h hi
  exact ⟨hpbState, hpcount, hiwidth, fun j => by rw [hpal]⟩

/-- Settles O19: the frames of the palette, of the gearbox and of the run over one command. -/
theorem unitsDoNotDisturbEachOther : Obligations.UnitsDoNotDisturbEachOther := fun _ _ _ h =>
  ⟨exec_samePalette h, exec_sameGearbox h, exec_run_frame h⟩

end Sys2Proof.Proofs
end

section
/-! The palette as a sorted list: membership, the position lb and the insertion (42_palette_builder.md R120, R122). The
palette commands read the memory through the list of the valid entries alone. -/

namespace Sys2Proof.Proofs

open Sys2Proof.Machine

theorem mem_palEntries {s : State} {k : Key} : k ∈ palEntries s ↔ ∃ i, i < s.pcount.toNat ∧ palGet s.pal i = k := by
  simp [palEntries]

theorem not_mem_palEntries {s : State} {k : Key} (h : ∀ i, i < s.pcount.toNat → palGet s.pal i ≠ k) :
    k ∉ palEntries s := fun hk =>
  have ⟨i, hi, heq⟩ := mem_palEntries.1 hk
  h i hi heq

@[simp] theorem palEntries_report (c : StatusCode) (s : State) : palEntries (report c s) = palEntries s := by
  simp [palEntries]

/-- The presence test looks the key up in the list, at the position lb (R120). -/
theorem palPresent_iff_getElem? (s : State) (k : Key) :
    palPresent s k = true ↔ (palEntries s)[lowerBound s k]? = some k := by
  simp only [palPresent, palEntries, Bool.and_eq_true, decide_eq_true_eq, List.getElem?_eq_some_iff, List.length_map,
    List.length_range, List.getElem_map, List.getElem_range, exists_prop]

/-- A key that is no valid entry is not found, in whatever order the entries stand. -/
theorem palPresent_eq_false {s : State} {k : Key} (h : k ∉ palEntries s) : palPresent s k = false :=
  Bool.eq_false_iff.2 fun hpresent => h (List.mem_of_getElem? ((palPresent_iff_getElem? s k).1 hpresent))

/-- The entries below p and no others being less than k, p is lb(k). -/
theorem lowerBound_eq_iff {s : State} (hs : (palEntries s).Pairwise (· < ·)) (k : Key) {p : Nat}
    (hp : p ≤ s.pcount.toNat) :
    lowerBound s k = p ↔
      (∀ i, i < p → palGet s.pal i < k) ∧ ∀ i, p ≤ i → i < s.pcount.toNat → ¬ palGet s.pal i < k := by
  have hcut : ∀ i, i < s.pcount.toNat → (palGet s.pal i < k ↔ i < lowerBound s k) := fun i => palGet_lt_iff hs k
  have hle := lowerBound_le s k
  constructor
  · rintro rfl
    exact ⟨fun i hi => (hcut i (by omega)).2 hi, fun i hpi hi hlt => absurd ((hcut i hi).1 hlt) (by omega)⟩
  · rintro ⟨hbelow, hfrom⟩
    rcases lt_trichotomy (lowerBound s k) p with hlt | heq | hgt
    · exact absurd ((hcut _ (by omega)).1 (hbelow _ hlt)) (lt_irrefl _)
    · exact heq
    · exact absurd ((hcut p (by omega)).2 hgt) (hfrom p le_rfl (by omega))

/-- An ascending palette finds each of its entries where it stands. -/
theorem lowerBound_palGet {s : State} (hs : (palEntries s).Pairwise (· < ·)) {p : Nat} (hp : p < s.pcount.toNat) :
    lowerBound s (palGet s.pal p) = p := by
  have hasc := (ascending_iff s).1 hs
  refine (lowerBound_eq_iff hs _ hp.le).2 ⟨fun i hi => hasc i p hi hp, fun i hpi hi hlt => ?_⟩
  rcases hpi.eq_or_lt with rfl | hpi
  · exact BitVec.lt_irrefl _ hlt
  · exact BitVec.lt_asymm hlt (hasc p i hpi hi)

theorem palPresent_iff_mem {s : State} (hs : (palEntries s).Pairwise (· < ·)) (k : Key) :
    palPresent s k = true ↔ k ∈ palEntries s := by
  constructor
  · exact fun h => List.mem_of_getElem? ((palPresent_iff_getElem? s k).1 h)
  · intro hk
    obtain ⟨i, hi, rfl⟩ := mem_palEntries.1 hk
    simp [palPresent, lowerBound_palGet hs hi, hi]

/-- Settles O33: the two halves of a sorted list at lb(k), and the presence test as membership. -/
theorem lowerBoundIsTheSortedPosition : Obligations.LowerBoundIsTheSortedPosition := by
  refine fun s k hs => ⟨fun p hp => lowerBound_eq_iff hs k hp, ?_⟩
  rw [← mem_palEntries, ← palPresent_iff_mem hs]
  simp [palPresent]

/-- The insertion of R122 is the insertion in the list of the valid entries. -/
theorem palEntries_palInsertAt {s t : State} {p : Nat} {k : Key} (hp : p ≤ s.pcount.toNat)
    (hpal : t.pal = palInsertAt s p k) (hcount : t.pcount.toNat = s.pcount.toNat + 1) :
    palEntries t = (palEntries s).insertIdx p k := by
  have hlen : p ≤ (palEntries s).length := by rwa [length_palEntries]
  apply List.ext_getElem
  · rw [List.length_insertIdx_of_le_length hlen, length_palEntries, length_palEntries, hcount]
  · intro j hj hj'
    rw [length_palEntries, hcount] at hj
    rw [List.getElem_insertIdx]
    simp only [palEntries, List.getElem_map, List.getElem_range, hpal, palGet_palInsertAt s k hp]
    rcases lt_trichotomy j p with hjp | rfl | hpj
    · rw [dif_pos hjp, if_neg (by omega), if_neg (by omega)]
    · rw [dif_neg (lt_irrefl j), dif_pos rfl, if_pos rfl]
    · rw [dif_neg (by omega), dif_neg (by omega), if_neg (by omega), if_pos ⟨hpj, by omega⟩]

end Sys2Proof.Proofs
end

section
/-! The palette commands, case by case in the order of their checks (42_palette_builder.md R121 to R126). -/

namespace Sys2Proof.Proofs

open Sys2Proof.Machine

variable {s : State}

theorem exec_pbClear (s : State) :
    exec .pbClear s = succeed { s with pbState := .building, pcount := 0#25, iwidth := 0#5 } := rfl

/-! PB_INSERT, with the capacity as an argument (R122) -/

theorem insertColour_refused (cap : Nat) (h : s.pbState ≠ .building) : insertColour cap s = raise .eBadState s := by
  rw [insertColour, if_pos h]

theorem insertColour_present (cap : Nat) (building : s.pbState = .building)
    (present : palPresent s (keyOperand s.arg0) = true) :
    insertColour cap s = succeed { s with
      res0 := BitVec.ofNat 32 (lowerBound s (keyOperand s.arg0))
      res1 := 1#32 } := by
  rw [insertColour, if_neg (not_not.2 building), if_pos present]

theorem insertColour_full {cap : Nat} (building : s.pbState = .building)
    (absent : palPresent s (keyOperand s.arg0) = false) (full : cap ≤ s.pcount.toNat) :
    insertColour cap s = raise .ePaletteOverflow s := by
  rw [insertColour, if_neg (not_not.2 building), if_neg (by simp [absent]), if_pos full]

theorem insertColour_new {cap : Nat} (building : s.pbState = .building)
    (absent : palPresent s (keyOperand s.arg0) = false) (room : s.pcount.toNat < cap) :
    insertColour cap s = succeed { s with
      pal := palInsertAt s (lowerBound s (keyOperand s.arg0)) (keyOperand s.arg0)
      pcount := s.pcount + 1#25
      res0 := BitVec.ofNat 32 (lowerBound s (keyOperand s.arg0))
      res1 := 0#32 } := by
  rw [insertColour, if_neg (not_not.2 building), if_neg (by simp [absent]), if_neg (by omega)]

/-- Only an absent colour in a full palette overflows, and the palette stays as it was. -/
theorem insertColour_overflow {cap : Nat} {t : State} (h : insertColour cap s = .next t)
    (hcode : t.lastCode = .ePaletteOverflow) :
    palPresent s (keyOperand s.arg0) = false ∧ cap ≤ s.pcount.toNat ∧ t = report .ePaletteOverflow s := by
  by_cases building : s.pbState = .building
  · cases present : palPresent s (keyOperand s.arg0) with
    | true =>
      cases (insertColour_present cap building present).symm.trans h
      cases hcode
    | false =>
      rcases Nat.lt_or_ge s.pcount.toNat cap with room | full
      · cases (insertColour_new building present room).symm.trans h
        cases hcode
      · cases (insertColour_full building present full).symm.trans h
        exact ⟨rfl, full, rfl⟩
  · cases (insertColour_refused cap building).symm.trans h
    rw [report_lastCode] at hcode
    cases hcode

/-! PB_SEAL (R124) -/

theorem pbSeal_refused (h : s.pbState ≠ .building) : exec .pbSeal s = raise .eBadState s := by
  simp only [exec, execPbSeal, if_pos h]

theorem pbSeal_empty (building : s.pbState = .building) (empty : s.pcount = 0#25) :
    exec .pbSeal s = raise .eInvalidInput s := by
  simp only [exec, execPbSeal, if_neg (not_not.2 building), if_pos empty]

theorem pbSeal_sealed (building : s.pbState = .building) (nonempty : s.pcount ≠ 0#25) :
    exec .pbSeal s = succeed { s with
      iwidth := BitVec.ofNat 5 (indexWidth s.pcount.toNat)
      pbState := .sealed
      res0 := s.pcount.setWidth 32
      res1 := (BitVec.ofNat 5 (indexWidth s.pcount.toNat)).setWidth 32 } := by
  simp only [exec, execPbSeal, if_neg (not_not.2 building), if_neg nonempty]

/-! PB_LOOKUP (R125) -/

theorem pbLookup_refused (h : s.pbState ≠ .sealed) : exec .pbLookup s = raise .eBadState s := by
  rw [exec, execPbLookup, if_pos h]

theorem pbLookup_absent (sealed : s.pbState = .sealed) (absent : palPresent s (keyOperand s.arg0) = false) :
    exec .pbLookup s = raise .eNotFound s := by
  rw [exec, execPbLookup, if_neg (not_not.2 sealed), if_neg (by simp [absent])]

theorem pbLookup_found (sealed : s.pbState = .sealed) (present : palPresent s (keyOperand s.arg0) = true) :
    exec .pbLookup s = succeed { s with res0 := BitVec.ofNat 32 (lowerBound s (keyOperand s.arg0)) } := by
  rw [exec, execPbLookup, if_neg (not_not.2 sealed), if_pos present]

/-! PB_READ (R126) -/

theorem pbRead_refused (h : s.pbState ≠ .sealed) : exec .pbRead s = raise .eBadState s := by
  rw [exec, execPbRead, if_pos h]

theorem pbRead_beyond (sealed : s.pbState = .sealed) (beyond : s.pcount.toNat ≤ s.arg0.toNat) :
    exec .pbRead s = raise .eIndexOutOfRange s := by
  rw [exec, execPbRead, if_neg (not_not.2 sealed), if_pos beyond]

theorem pbRead_entry (sealed : s.pbState = .sealed) (valid : s.arg0.toNat < s.pcount.toNat) :
    exec .pbRead s = succeed { s with res0 := (palGet s.pal s.arg0.toNat).setWidth 32 } := by
  rw [exec, execPbRead, if_neg (not_not.2 sealed), if_neg (not_le.2 valid)]

end Sys2Proof.Proofs
end

section
/-! The statements about one palette command (42_palette_builder.md R121, R122, R124 to R127). -/

namespace Sys2Proof.Proofs

open Sys2Proof.Machine

theorem reportsOnly_of_raise {c : StatusCode} {s : State} {r : Result} (h : r = raise c s) : ReportsOnly c s r :=
  h ▸ reportsOnly_report c s

/-- Settles O32: PB_CLEAR is a success that checks nothing. -/
theorem clearPalette : Obligations.ClearPalette := ⟨decode_pbClear, exec_pbClear⟩

/-- The palette after an insertion, with its entries in the order of their indexes. -/
theorem palGet_palInsertAt_in_order (s : State) {p : Nat} (k : Key) (hp : p ≤ s.pcount.toNat) (i : Nat) :
    palGet (palInsertAt s p k) i =
      if i < p then palGet s.pal i
      else if i = p then k
      else if i ≤ s.pcount.toNat then palGet s.pal (i - 1)
      else palGet s.pal i := by
  rw [palGet_palInsertAt s k hp]
  rcases lt_trichotomy i p with hlt | heq | hgt
  · rw [if_neg hlt.ne, if_neg (by omega), if_pos hlt]
  · rw [if_pos heq, if_neg (by omega), if_pos heq]
  · rw [if_neg hgt.ne', if_neg (Nat.lt_asymm hgt), if_neg (Nat.ne_of_gt hgt)]
    simp only [gt_iff_lt.1 hgt, true_and]

/-- Settles O34: the cases of insertColour at PAL_CAP, and the palette that palInsertAt leaves. -/
theorem insertColourCases : Obligations.InsertColour := by
  refine ⟨decode_pbInsert, fun s k hk => ?_⟩
  obtain rfl : keyOperand s.arg0 = k := hk ▸ keyOperand_eq_colourKey s.arg0
  refine ⟨?refused, ?present, ?full, ?new⟩
  case refused => exact fun h => reportsOnly_of_raise (insertColour_refused _ h)
  case present =>
    intro building hs p hp heq
    have present := (palPresent_iff_mem hs _).2 (mem_palEntries.2 ⟨p, hp, heq⟩)
    refine (insertColour_present _ building present).trans ?_
    rw [← heq, lowerBound_palGet hs hp]
    rfl
  case full =>
    intro building absent full
    exact reportsOnly_of_raise (insertColour_full building (palPresent_eq_false (not_mem_palEntries absent)) full.ge)
  case new =>
    intro building absent room form
    refine ⟨palInsertAt s (lowerBound s (keyOperand s.arg0)) (keyOperand s.arg0), palWf_palInsertAt s _ _ form,
      palGet_palInsertAt_in_order s _ (lowerBound_le s _), ?_⟩
    refine (insertColour_new building (palPresent_eq_false (not_mem_palEntries absent)) room).trans ?_
    rw [BitVec.ofNat_add, BitVec.ofNat_toNat, BitVec.setWidth_eq]
    rfl

/-- There are only 2^24 keys, so a palette of 2^24 different entries holds every key (41_comparator.md R111). -/
theorem mem_palEntries_of_all {s : State} (hs : (palEntries s).Pairwise (· < ·)) (hcount : 2 ^ 24 ≤ s.pcount.toNat)
    (k : Key) : k ∈ palEntries s := by
  by_contra hk
  have hnodup : (k :: palEntries s).Nodup := List.nodup_cons.2 ⟨hk, hs.nodup⟩
  have hcard := (hnodup.map BitVec.toFin_injective).length_le_card
  rw [List.length_map, List.length_cons, length_palEntries, Fintype.card_fin] at hcard
  omega

/-- Settles O35: in a full palette of 2^24 entries every colour is a duplicate. -/
theorem fullCapacityNeverOverflows : Obligations.FullCapacityNeverOverflows := by
  intro s t hs _ h hcode
  obtain ⟨absent, full, -⟩ := insertColour_overflow h hcode
  have present := (palPresent_iff_mem hs _).2 (mem_palEntries_of_all hs full (keyOperand s.arg0))
  rw [absent] at present
  cases present

/-- Settles O38: the cases of PB_SEAL; no index width of a palette is lost in IWIDTH's 5 bits. -/
theorem sealPalette : Obligations.SealPalette := by
  refine ⟨decode_pbSeal, fun s => ⟨?refused, ?empty, ?sealed⟩⟩
  case refused => exact fun h => reportsOnly_of_raise (pbSeal_refused h)
  case empty => exact fun building empty => reportsOnly_of_raise (pbSeal_empty building (BitVec.eq_of_toNat_eq empty))
  case sealed =>
    intro building nonempty hcount
    have hwidth : indexWidth s.pcount.toNat < 2 ^ 5 := indexWidth_lt (hcount.trans Config.palCap_le)
    refine (pbSeal_sealed building (by rintro h; simp [h] at nonempty)).trans ?_
    rw [BitVec.setWidth_ofNat_of_le_of_lt (by decide) hwidth, BitVec.ofNat_toNat]
    rfl

/-- Settles O39: the cases of PB_LOOKUP, and the position at which an ascending palette finds its entry. -/
theorem lookupColour : Obligations.LookupColour := by
  refine ⟨decode_pbLookup, fun s k hk => ?_⟩
  obtain rfl : keyOperand s.arg0 = k := hk ▸ keyOperand_eq_colourKey s.arg0
  refine ⟨?refused, ?absent, ?found⟩
  case refused => exact fun h => reportsOnly_of_raise (pbLookup_refused h)
  case absent =>
    exact fun sealed absent =>
      reportsOnly_of_raise (pbLookup_absent sealed (palPresent_eq_false (not_mem_palEntries absent)))
  case found =>
    intro sealed hs p hp heq
    have present := (palPresent_iff_mem hs _).2 (mem_palEntries.2 ⟨p, hp, heq⟩)
    refine (pbLookup_found sealed present).trans ?_
    rw [← heq, lowerBound_palGet hs hp]
    rfl

/-- Settles O40: the cases of PB_READ. -/
theorem readPaletteEntry : Obligations.ReadPaletteEntry := by
  refine ⟨decode_pbRead, fun s => ⟨?refused, ?beyond, ?entry⟩⟩
  case refused => exact fun h => reportsOnly_of_raise (pbRead_refused h)
  case beyond => exact fun sealed beyond => reportsOnly_of_raise (pbRead_beyond sealed beyond)
  case entry =>
    intro sealed valid
    rw [pbRead_entry sealed valid, BitVec.ofNat_toNat]
    rfl

end Sys2Proof.Proofs
end

section
/-! Commands of other units in every PB_STATE (42_palette_builder.md R127). -/

namespace Sys2Proof.Proofs

open Sys2Proof.Machine

/-- The state with another PB_STATE. -/
def withPbState (q : PbState) (s : State) : State := { s with pbState := q }

/-- The answer with another PB_STATE in its next state. -/
def answerWithPbState (q : PbState) : Result → Result
  | .next t => .next (withPbState q t)
  | .fault f => .fault f
  | .refused r => .refused r

theorem raise_withPbState (c : StatusCode) (q : PbState) (s : State) :
    raise c (withPbState q s) = answerWithPbState q (raise c s) := by
  simp only [raise, report, withPbState]
  split <;> rfl

/-- A command of another unit neither reads nor writes PB_STATE. -/
theorem exec_withPbState {i : Instr} (hi : i ∉ [Instr.reset, .pbClear, .pbInsert, .pbSeal, .pbLookup, .pbRead])
    (q : PbState) (s : State) : exec i (withPbState q s) = answerWithPbState q (exec i s) := by
  cases i with
  | nop | clrerr | cccCmp | bpStop => rfl
  | iwcCalc | bpPopByte | bpFlush | bpEnd | bpPopValue =>
    simp only [exec, execIwcCalc, execBpPopByte, execBpFlush, execBpEnd, execBpPopValue, apply_ite (answerWithPbState q),
      ← raise_withPbState]
    rfl
  | bpCfgPack | bpCfgUnpack =>
    simp only [exec, execBpCfgPack, execBpCfgUnpack, withPbState]
    split
    next => exact raise_withPbState _ q s
    next => rfl
  | bpPushValue =>
    have hvalue : valueOperand (withPbState q s).w (withPbState q s).arg0 = valueOperand s.w s.arg0 := rfl
    simp only [exec, execBpPushValue, hvalue, apply_ite (answerWithPbState q), ← raise_withPbState]
    cases valueOperand s.w s.arg0 with
    | none => simp only [← raise_withPbState]; rfl
    | some v => simp only [apply_ite (answerWithPbState q), ← raise_withPbState]; rfl
  | bpPushByte =>
    have hbyte : byteOperand (withPbState q s).arg0 = byteOperand s.arg0 := rfl
    simp only [exec, execBpPushByte, hbyte, apply_ite (answerWithPbState q), ← raise_withPbState]
    cases byteOperand s.arg0 with
    | none => simp only [← raise_withPbState]; rfl
    | some b => simp only [apply_ite (answerWithPbState q), ← raise_withPbState]; rfl
  | _ => simp at hi

/-- Settles O21: E_BAD_STATE comes where the command is not accepted, and other units do not look at PB_STATE. -/
theorem paletteCommandAcceptance : Obligations.PaletteCommandAcceptance := by
  intro s t
  refine ⟨fun h => ?clear, exec_badState_iff, exec_badState_iff, exec_badState_iff, exec_badState_iff,
    fun i hi h => ⟨?frame, fun q => ?others⟩⟩
  case clear => simpa [Accepts] using exec_badState_iff h
  case frame => exact exec_pbState_frame h (by simp_all)
  case others => exact (exec_withPbState hi q s).trans (congrArg (answerWithPbState q) h)

end Sys2Proof.Proofs
end

section
/-! Insertion sorting (42_palette_builder.md R123): what holds of the palette builder between the insertions after a
PB_CLEAR, and the induction over the colours. -/

namespace Sys2Proof.Proofs

open Sys2Proof.Machine

theorem okState_eq_some_iff {r : Result} {t : State} : okState r = some t ↔ r = .next t ∧ t.lastCode = .ok := by
  cases r with
  | next u =>
    simp only [okState, Option.ite_none_right_eq_some, Option.some.injEq, Host.Outcome.next.injEq]
    exact ⟨fun ⟨hok, heq⟩ => ⟨heq, heq ▸ hok⟩, fun ⟨heq, hok⟩ => ⟨heq ▸ hok, heq⟩⟩
  | fault f => exact nomatch f
  | refused r => simp [okState]

theorem insertAll_cons_eq_some_iff {c : Word} {cs : List Word} {s t : State} :
    insertAll (c :: cs) s = some t ↔
      ∃ u, exec .pbInsert { s with arg0 := c } = .next u ∧ u.lastCode = .ok ∧ insertAll cs u = some t := by
  simp only [insertAll, Option.bind_eq_some_iff, okState_eq_some_iff, and_assoc]

/-- The set of the keys of the colours cs. -/
def keySet (cs : List Word) : Finset Key := (cs.map keyOperand).toFinset

theorem keySet_cons (c : Word) (cs : List Word) : keySet (c :: cs) = insert (keyOperand c) (keySet cs) := by
  simp [keySet]

theorem mem_keySet {cs : List Word} {k : Key} : k ∈ keySet cs ↔ ∃ c ∈ cs, colourKey (colourOf c) = k := by
  simp [keySet, keyOperand_eq_colourKey]

theorem card_keySet (cs : List Word) : (keySet cs).card = (cs.map fun c => colourKey (colourOf c)).dedup.length := by
  simp only [keySet, List.card_toFinset, ← keyOperand_eq_colourKey]

theorem keySet_congr {cs cs' : List Word} (h : ∀ c, c ∈ cs ↔ c ∈ cs') : keySet cs = keySet cs' := by
  ext k
  simp only [mem_keySet, h]

/-- The palette under construction holds the set K of keys, sorted (R123). -/
structure Collected (K : Finset Key) (s : State) : Prop where
  building : s.pbState = .building
  width : s.iwidth = 0#5
  ascending : (palEntries s).Pairwise (· < ·)
  entries : (palEntries s).toFinset = K

section

variable {K : Finset Key} {s t : State}

theorem Collected.mem_iff (h : Collected K s) (k : Key) : k ∈ palEntries s ↔ k ∈ K := by
  rw [← h.entries, List.mem_toFinset]

theorem Collected.pcount_eq (h : Collected K s) : s.pcount.toNat = K.card := by
  rw [← h.entries, List.toFinset_card_of_nodup h.ascending.nodup, length_palEntries]

theorem Collected.with_arg0 (h : Collected K s) (c : Word) : Collected K { s with arg0 := c } :=
  ⟨h.building, h.width, h.ascending, h.entries⟩

theorem collected_clear (h : exec .pbClear s = .next t) : Collected ∅ t := by
  cases (exec_pbClear s).symm.trans h
  exact ⟨rfl, rfl, List.Pairwise.nil, rfl⟩

/-- PB_INSERT adds its colour's key to the set: a duplicate is there already, and a new key goes in at lb (R122). -/
theorem collected_insert (h : Collected K s) (hexec : exec .pbInsert s = .next t) (hok : t.lastCode = .ok) :
    Collected (insert (keyOperand s.arg0) K) t := by
  obtain ⟨u, effect, rfl⟩ := exec_succeeded hexec hok
  cases effect with
  | pbInsertPresent building present =>
    have hmem : keyOperand s.arg0 ∈ K := (h.mem_iff _).1 ((palPresent_iff_mem h.ascending _).1 present)
    rw [Finset.insert_eq_of_mem hmem]
    exact ⟨building, h.width, h.ascending, h.entries⟩
  | pbInsertNew building absent room =>
    have hcap := Config.palCap_le
    have hsucc : (s.pcount + 1#25).toNat = s.pcount.toNat + 1 := by
      rw [BitVec.toNat_add]
      exact Nat.mod_eq_of_lt (by simp; omega)
    have hle : lowerBound s (keyOperand s.arg0) ≤ s.pcount.toNat := lowerBound_le s _
    refine ⟨building, h.width, ascending_palInsertAt h.ascending absent rfl hsucc, ?_⟩
    ext k
    rw [List.mem_toFinset, palEntries_palInsertAt hle rfl hsucc, List.mem_insertIdx (by rwa [length_palEntries]),
      Finset.mem_insert, h.mem_iff]

/-- PB_INSERT succeeds where its colour is a duplicate or finds room (R122). -/
theorem pbInsert_succeeds (h : Collected K s) (hfit : (insert (keyOperand s.arg0) K).card ≤ Config.palCap) :
    ∃ t, exec .pbInsert s = .next t ∧ t.lastCode = .ok := by
  cases present : palPresent s (keyOperand s.arg0) with
  | true => exact ⟨_, insertColour_present _ h.building present, rfl⟩
  | false =>
    have hnew : keyOperand s.arg0 ∉ K := by
      rw [← h.mem_iff, ← palPresent_iff_mem h.ascending, present]
      exact Bool.false_ne_true
    rw [Finset.card_insert_of_notMem hnew, ← h.pcount_eq] at hfit
    exact ⟨_, insertColour_new h.building present hfit, rfl⟩

theorem collected_insertAll {cs : List Word} (h : Collected K s) (hall : insertAll cs s = some t) :
    Collected (keySet cs ∪ K) t := by
  induction cs generalizing s K with
  | nil =>
    cases hall
    simpa [keySet] using h
  | cons c cs ih =>
    obtain ⟨u, hu, hok, hall⟩ := insertAll_cons_eq_some_iff.1 hall
    have hrest := ih (collected_insert (h.with_arg0 c) hu hok) hall
    rwa [keySet_cons, Finset.insert_union, ← Finset.union_insert]

theorem insertAll_succeeds {cs : List Word} (h : Collected K s) (hfit : (keySet cs ∪ K).card ≤ Config.palCap) :
    ∃ t, insertAll cs s = some t := by
  induction cs generalizing s K with
  | nil => exact ⟨s, rfl⟩
  | cons c cs ih =>
    rw [keySet_cons, Finset.insert_union, ← Finset.union_insert] at hfit
    have hone := (Finset.card_le_card Finset.subset_union_right).trans hfit
    obtain ⟨u, hu, hok⟩ := pbInsert_succeeds (h.with_arg0 c) hone
    obtain ⟨t, ht⟩ := ih (collected_insert (h.with_arg0 c) hu hok) hfit
    exact ⟨t, insertAll_cons_eq_some_iff.2 ⟨u, hu, hok, ht⟩⟩

/-- After PB_CLEAR and insertions that all succeed, the palette holds the keys of their colours. -/
theorem collected_of_run {cs : List Word} {s0 : State} (hclear : exec .pbClear s = .next s0)
    (hall : insertAll cs s0 = some t) : Collected (keySet cs) t :=
  Finset.union_empty (keySet cs) ▸ collected_insertAll (collected_clear hclear) hall

end

/-- Settles O36: every insertion keeps the palette the sorted set of the keys so far; it overflows only where its colour is
absent. -/
theorem insertionSortsTheColourSet : Obligations.InsertionSortsTheColourSet := by
  refine ⟨fun cs s s0 t hclear hall => ?sorts, fun cs s s0 hclear hfit => ?succeeds, fun s t hs h hcode => ?overflow⟩
  case sorts =>
    have hrun := collected_of_run hclear hall
    exact ⟨hrun.ascending, fun k => (hrun.mem_iff k).trans mem_keySet, hrun.pcount_eq.trans (card_keySet cs)⟩
  case succeeds =>
    rw [← card_keySet, ← Finset.union_empty (keySet cs)] at hfit
    exact insertAll_succeeds (collected_clear hclear) hfit
  case overflow =>
    obtain ⟨absent, -, rfl⟩ := insertColour_overflow h hcode
    rw [palEntries_report, ← keyOperand_eq_colourKey, ← palPresent_iff_mem hs, absent]
    exact Bool.false_ne_true

end Sys2Proof.Proofs
end

section
/-! Determinism (42_palette_builder.md R128): PB_SEAL and PB_LOOKUP see of the palette memory the valid entries alone. -/

namespace Sys2Proof.Proofs

open Sys2Proof.Machine

/-- Two states with the same palette, as far as a command can tell (10_state.md R32). -/
structure SameEntries (s t : State) : Prop where
  pbState : s.pbState = t.pbState
  iwidth : s.iwidth = t.iwidth
  entries : palEntries s = palEntries t

variable {s t u v : State}

theorem SameEntries.pcount_eq (h : SameEntries s t) : s.pcount = t.pcount := by
  apply BitVec.eq_of_toNat_eq
  rw [← length_palEntries, ← length_palEntries, h.entries]

theorem SameEntries.lowerBound_eq (h : SameEntries s t) (k : Key) : lowerBound s k = lowerBound t k := by
  rw [lowerBound, lowerBound, h.entries]

theorem SameEntries.palPresent_eq (h : SameEntries s t) (k : Key) : palPresent s k = palPresent t k := by
  rw [Bool.eq_iff_iff, palPresent_iff_getElem?, palPresent_iff_getElem?, h.lowerBound_eq, h.entries]

/-- An ascending list is determined by the set of its elements. -/
theorem sameEntries_of_collected {K : Finset Key} (hs : Collected K s) (ht : Collected K t) : SameEntries s t where
  pbState := hs.building.trans ht.building.symm
  iwidth := hs.width.trans ht.width.symm
  entries := hs.ascending.eq_of_mem_iff ht.ascending fun k => (hs.mem_iff k).trans (ht.mem_iff k).symm

theorem sameEntries_report (h : SameEntries s t) (c : StatusCode) : SameEntries (report c s) (report c t) where
  pbState := by simpa using h.pbState
  iwidth := by simpa using h.iwidth
  entries := by simpa using h.entries

theorem sameEntries_pbSeal (h : SameEntries s t) (hs : exec .pbSeal s = .next u) (ht : exec .pbSeal t = .next v) :
    SameEntries u v := by
  by_cases building : s.pbState = .building
  · have building' : t.pbState = .building := h.pbState ▸ building
    by_cases empty : s.pcount = 0#25
    · cases (pbSeal_empty building empty).symm.trans hs
      cases (pbSeal_empty building' (h.pcount_eq ▸ empty)).symm.trans ht
      exact sameEntries_report h _
    · cases (pbSeal_sealed building empty).symm.trans hs
      cases (pbSeal_sealed building' (h.pcount_eq ▸ empty)).symm.trans ht
      exact ⟨rfl, congrArg (fun n : BitVec 25 => BitVec.ofNat 5 (indexWidth n.toNat)) h.pcount_eq, h.entries⟩
  · cases (pbSeal_refused building).symm.trans hs
    cases (pbSeal_refused (h.pbState ▸ building)).symm.trans ht
    exact sameEntries_report h _

/-- PB_LOOKUP of one colour in two states with the same palette. -/
theorem pbLookup_sameEntries (h : SameEntries s t) (harg : s.arg0 = t.arg0) :
    ∃ u v, exec .pbLookup s = .next u ∧ exec .pbLookup t = .next v ∧
      u.lastCode = v.lastCode ∧ (u.lastCode = .ok → u.res0 = v.res0) := by
  by_cases sealed : s.pbState = .sealed
  · have sealed' : t.pbState = .sealed := h.pbState ▸ sealed
    have hsame : palPresent s (keyOperand s.arg0) = palPresent t (keyOperand t.arg0) := by
      rw [h.palPresent_eq, harg]
    cases present : palPresent s (keyOperand s.arg0) with
    | true =>
      refine ⟨_, _, pbLookup_found sealed present, pbLookup_found sealed' (hsame ▸ present), rfl, fun _ => ?_⟩
      rw [success_res0, success_res0, h.lowerBound_eq, harg]
    | false =>
      exact ⟨_, _, pbLookup_absent sealed present, pbLookup_absent sealed' (hsame ▸ present), by simp, by simp⟩
  · exact ⟨_, _, pbLookup_refused sealed, pbLookup_refused (h.pbState ▸ sealed), by simp, by simp⟩

/-- Settles O37: both runs collect the same set of keys, so they seal and search the same sorted list. -/
theorem paletteDependsOnlyOnTheSet : Obligations.PaletteDependsOnlyOnTheSet := by
  intro cs cs' s s' s0 s0' t t' u u' hset hclear hclear' hall hall' hseal hseal'
  have hrun : Collected (keySet cs) t := collected_of_run hclear hall
  have hrun' : Collected (keySet cs) t' := keySet_congr hset ▸ collected_of_run hclear' hall'
  have hsame : SameEntries u u' := sameEntries_pbSeal (sameEntries_of_collected hrun hrun') hseal hseal'
  exact ⟨hsame.pcount_eq, hsame.entries, hsame.iwidth, fun c =>
    pbLookup_sameEntries (s := { u with arg0 := c }) (t := { u' with arg0 := c })
      ⟨hsame.pbState, hsame.iwidth, hsame.entries⟩ rfl⟩

end Sys2Proof.Proofs
end

section
/-! The index width calculator (43_index_width.md R140, R141). -/

namespace Sys2Proof.Proofs

open Sys2Proof.Machine

/-- A width is enough for a palette of n entries exactly from the index width on (R140). -/
theorem indexWidth_le_iff {n w : Nat} : indexWidth n ≤ w ↔ n ≤ 2 ^ w := by
  have hpow : 0 < 2 ^ w := Nat.two_pow_pos w
  unfold indexWidth bitlen
  split_ifs with h
  · exact iff_of_true (Nat.zero_le w) (by omega)
  · rw [Nat.succ_le_iff, Nat.log2_lt h]
    omega

theorem lt_indexWidth_iff {n w : Nat} : w < indexWidth n ↔ 2 ^ w < n := by
  rw [← not_le, indexWidth_le_iff, not_le]

/-- The width that is enough, and below which none is, is the index width. -/
theorem indexWidth_eq {n w : Nat} (enough : n ≤ 2 ^ w) (least : ∀ v, v < w → 2 ^ v < n) : indexWidth n = w :=
  le_antisymm (indexWidth_le_iff.2 enough) (not_lt.1 fun h => lt_irrefl _ (lt_indexWidth_iff.2 (least _ h)))

/-- Settles O41: the index width as the least width that is enough; 2^24 entries are enough for 24 bits and too many for 23. -/
theorem indexWidthIsLeast : Obligations.IndexWidthIsLeast := by
  refine ⟨fun n _ hn => ⟨rfl, indexWidth_le_iff.1 le_rfl, ?below, fun w => indexWidth_le_iff.2, indexWidth_le_iff.2 hn⟩,
    rfl, ?top⟩
  case below => exact fun h => lt_indexWidth_iff.1 (Nat.sub_one_lt_of_lt h)
  case top => exact indexWidth_eq le_rfl fun v hv => Nat.pow_lt_pow_right one_lt_two hv

/-! IWC_CALC (R141) -/

theorem iwcCalc_refused {s : State} (h : s.arg0.toNat = 0 ∨ 2 ^ 24 < s.arg0.toNat) :
    exec .iwcCalc s = raise .eInvalidPaletteSize s := if_pos h

theorem iwcCalc_width {s : State} (low : 1 ≤ s.arg0.toNat) (high : s.arg0.toNat ≤ 2 ^ 24) :
    exec .iwcCalc s = succeed { s with res0 := BitVec.ofNat 32 (indexWidth s.arg0.toNat) } :=
  if_neg (not_or.2 ⟨Nat.one_le_iff_ne_zero.1 low, not_lt.2 high⟩)

/-- Settles O42: the two cases of IWC_CALC, and the width of the statement as the index width. -/
theorem calculateIndexWidth : Obligations.CalculateIndexWidth := by
  refine ⟨decode_iwcCalc, fun s => ⟨?refused, ?width⟩⟩
  case refused => exact fun h => reportsOnly_of_raise (iwcCalc_refused h)
  case width =>
    intro w low high enough least
    rw [iwcCalc_width low high, indexWidth_eq enough least, succeed_eq, success]

end Sys2Proof.Proofs
end

section
/-! The gearbox commands, case by case in the order of their checks (44_bit_packer.md R151 to R162). -/

namespace Sys2Proof.Proofs

open Sys2Proof.Machine

/-! The operands (30_encoding.md R84) -/

theorem widthOperand_legal {a : Word} (h : a.toNat ≤ 32) : widthOperand a = some (BitVec.ofNat 6 a.toNat) := if_pos h

/-- W holds every legal width. -/
theorem widthBits_toNat {a : Nat} (h : a ≤ 32) : (BitVec.ofNat 6 a).toNat = a := by
  rw [BitVec.toNat_ofNat]
  omega

theorem widthOperand_wide {a : Word} (h : 32 < a.toNat) : widthOperand a = none := if_neg (not_le.2 h)

theorem valueOperand_fits {w : BitVec 6} {a : Word} (h : a.toNat < 2 ^ w.toNat) : valueOperand w a = some a := if_pos h

theorem valueOperand_unfit {w : BitVec 6} {a : Word} (h : 2 ^ w.toNat ≤ a.toNat) : valueOperand w a = none :=
  if_neg (not_lt.2 h)

/-- The value operand is ARG0 itself (R152). -/
theorem valueOperand_eq_self {w : BitVec 6} {a v : Word} (h : valueOperand w a = some v) : a = v := by
  unfold valueOperand at h
  split at h
  next => exact Option.some_inj.1 h
  next => cases h

theorem byteOperand_byte {a : Word} (h : a.toNat < 256) : byteOperand a = some (BitVec.ofNat 8 a.toNat) := by
  rw [byteOperand_eq, if_pos h]

theorem byteOperand_wide {a : Word} (h : 256 ≤ a.toNat) : byteOperand a = none := by
  rw [byteOperand_eq, if_neg (not_lt.2 h)]

/-- The byte operand is the whole of ARG0 (R160). -/
theorem byteOperand_setWidth {a : Word} {b : Byte} (h : byteOperand a = some b) : b.setWidth 32 = a := by
  rw [byteOperand_eq] at h
  split at h
  next ha =>
    cases h
    exact BitVec.eq_of_toNat_eq (by simp; omega)
  next => cases h

theorem byte_setWidth_toNat (b : Byte) : (b.setWidth 32).toNat = b.toNat :=
  BitVec.toNat_setWidth_of_le (by decide)

variable {s : State}

/-! The two configurations (R151, R157) -/

theorem bpCfgPack_refused (wide : 32 < s.arg1.toNat) : exec .bpCfgPack s = raise .eBadOperand s := by
  simp only [exec, execBpCfgPack, widthOperand_wide wide]

theorem bpCfgPack_fresh (width : s.arg1.toNat ≤ 32) :
    exec .bpCfgPack s = succeed (freshStream .pack (BitVec.ofNat 6 s.arg1.toNat) s.arg0 0#32 s) := by
  simp only [exec, execBpCfgPack, widthOperand_legal width]

theorem bpCfgUnpack_refused (wide : 32 < s.arg1.toNat) : exec .bpCfgUnpack s = raise .eBadOperand s := by
  simp only [exec, execBpCfgUnpack, widthOperand_wide wide]

theorem bpCfgUnpack_fresh (width : s.arg1.toNat ≤ 32) :
    exec .bpCfgUnpack s = succeed (freshStream .unpack (BitVec.ofNat 6 s.arg1.toNat) s.arg0 s.arg2 s) := by
  simp only [exec, execBpCfgUnpack, widthOperand_legal width]

/-! BP_PUSH_VALUE (R152) -/

theorem bpPushValue_refused (h : s.bpMode ≠ .pack) : exec .bpPushValue s = raise .eBadState s := by
  rw [exec, execBpPushValue, if_pos h]

theorem bpPushValue_unfit (pack : s.bpMode = .pack) (unfit : 2 ^ s.w.toNat ≤ s.arg0.toNat) :
    exec .bpPushValue s = raise .eBadOperand s := by
  simp only [exec, execBpPushValue, if_neg (not_not.2 pack), valueOperand_unfit unfit]

theorem bpPushValue_complete (pack : s.bpMode = .pack) (fits : s.arg0.toNat < 2 ^ s.w.toNat) (count : s.vcount = s.n) :
    exec .bpPushValue s = raise .eCount s := by
  simp only [exec, execBpPushValue, if_neg (not_not.2 pack), valueOperand_fits fits, if_pos count]

theorem bpPushValue_held (pack : s.bpMode = .pack) (fits : s.arg0.toNat < 2 ^ s.w.toNat) (count : s.vcount ≠ s.n)
    (full : 8 ≤ s.accBits.toNat) : exec .bpPushValue s = raise .eOverrun s := by
  simp only [exec, execBpPushValue, if_neg (not_not.2 pack), valueOperand_fits fits, if_neg count, if_pos full]

theorem bpPushValue_pushed (pack : s.bpMode = .pack) (fits : s.arg0.toNat < 2 ^ s.w.toNat) (count : s.vcount ≠ s.n)
    (room : s.accBits.toNat < 8) :
    exec .bpPushValue s = succeed { s with
      acc := accIn s.acc s.accBits s.arg0
      accBits := s.accBits + s.w
      vcount := s.vcount + 1#32 } := by
  simp only [exec, execBpPushValue, if_neg (not_not.2 pack), valueOperand_fits fits, if_neg count, if_neg (not_le.2 room)]

/-! BP_POP_BYTE (R153) -/

theorem bpPopByte_refused (h : s.bpMode ≠ .pack) : exec .bpPopByte s = raise .eBadState s := by
  rw [exec, execBpPopByte, if_pos h]

theorem bpPopByte_held (pack : s.bpMode = .pack) (short : s.accBits.toNat < 8) :
    exec .bpPopByte s = raise .eUnderrun s := by
  rw [exec, execBpPopByte, if_neg (not_not.2 pack), if_pos short]

theorem bpPopByte_popped (pack : s.bpMode = .pack) (ready : 8 ≤ s.accBits.toNat) :
    exec .bpPopByte s = succeed { s with
      res0 := (s.acc.extractLsb' 0 8).setWidth 32
      acc := s.acc >>> 8
      accBits := s.accBits - 8#6
      bcount := s.bcount + 1#64 } := by
  rw [exec, execBpPopByte, if_neg (not_not.2 pack), if_neg (not_lt.2 ready)]

/-! BP_FLUSH (R154) -/

theorem bpFlush_refused (h : s.bpMode ≠ .pack) : exec .bpFlush s = raise .eBadState s := by
  rw [exec, execBpFlush, if_pos h]

theorem bpFlush_incomplete (pack : s.bpMode = .pack) (missing : s.vcount ≠ s.n) :
    exec .bpFlush s = raise .eCount s := by
  rw [exec, execBpFlush, if_neg (not_not.2 pack), if_pos missing]

theorem bpFlush_held (pack : s.bpMode = .pack) (count : s.vcount = s.n) (full : 8 ≤ s.accBits.toNat) :
    exec .bpFlush s = raise .eOverrun s := by
  rw [exec, execBpFlush, if_neg (not_not.2 pack), if_neg (not_not.2 count), if_pos full]

theorem bpFlush_flushed (pack : s.bpMode = .pack) (count : s.vcount = s.n) (room : s.accBits.toNat < 8) :
    exec .bpFlush s = succeed { s with accBits := if s.accBits = 0#6 then 0#6 else 8#6, flushed := true } := by
  rw [exec, execBpFlush, if_neg (not_not.2 pack), if_neg (not_not.2 count), if_neg (not_le.2 room)]

/-! BP_END (R158) and BP_STOP (R162) -/

theorem bpEnd_refused (h : s.bpMode ≠ .unpack) : exec .bpEnd s = raise .eBadState s := by
  rw [exec, execBpEnd, if_pos h]

theorem bpEnd_ended (unpack : s.bpMode = .unpack) : exec .bpEnd s = succeed { s with ended := true } := by
  rw [exec, execBpEnd, if_neg (not_not.2 unpack)]

theorem exec_bpStop (s : State) : exec .bpStop s = succeed (stopStream s) := rfl

/-! BP_PUSH_BYTE (R160) -/

theorem bpPushByte_refused (h : s.bpMode ≠ .unpack ∨ s.ended = true) : exec .bpPushByte s = raise .eBadState s := by
  rw [exec, execBpPushByte, if_pos h]

section

variable (unpack : s.bpMode = .unpack) (running : s.ended = false)
include unpack running

theorem bpPushByte_wide (wide : 256 ≤ s.arg0.toNat) : exec .bpPushByte s = raise .eBadOperand s := by
  simp only [exec, execBpPushByte, unpack, running, byteOperand_wide wide]
  rfl

theorem bpPushByte_complete (byte : s.arg0.toNat < 256) (count : s.bcount = s.bneed) :
    exec .bpPushByte s = raise .eCount s := by
  simp only [exec, execBpPushByte, unpack, running, byteOperand_byte byte, if_pos count]
  rfl

theorem bpPushByte_held (byte : s.arg0.toNat < 256) (count : s.bcount ≠ s.bneed) (full : 32 < s.accBits.toNat) :
    exec .bpPushByte s = raise .eOverrun s := by
  simp only [exec, execBpPushByte, unpack, running, byteOperand_byte byte, if_neg count, if_pos full]
  rfl

theorem bpPushByte_pushed (byte : s.arg0.toNat < 256) (count : s.bcount ≠ s.bneed) (room : s.accBits.toNat ≤ 32) :
    exec .bpPushByte s = succeed { s with
      acc := accIn s.acc s.accBits s.arg0
      accBits := s.accBits + 8#6
      bcount := s.bcount + 1#64 } := by
  simp only [exec, execBpPushByte, unpack, running, byteOperand_byte byte, if_neg count, if_neg (not_lt.2 room),
    byteOperand_setWidth (byteOperand_byte byte)]
  rfl

end

/-! BP_POP_VALUE (R161) -/

theorem bpPopValue_refused (h : s.bpMode ≠ .unpack) : exec .bpPopValue s = raise .eBadState s := by
  simp only [exec, execBpPopValue, if_pos h]

section

variable (unpack : s.bpMode = .unpack)
include unpack

theorem bpPopValue_complete (count : s.vcount = s.n) : exec .bpPopValue s = raise .eCount s := by
  simp only [exec, execBpPopValue, if_neg (not_not.2 unpack), if_pos count]

/-- With bits missing the value is awaited until the input has ended. -/
theorem bpPopValue_short (count : s.vcount ≠ s.n) (short : s.accBits.toNat < s.w.toNat) :
    exec .bpPopValue s = raise (if s.ended = true then .eTruncatedData else .eUnderrun) s := by
  simp only [exec, execBpPopValue, if_neg (not_not.2 unpack), if_neg count, if_pos short, apply_ite (raise · s)]

theorem bpPopValue_bounded (count : s.vcount ≠ s.n) (ready : s.w.toNat ≤ s.accBits.toNat)
    (bound : s.limit ≠ 0#32 ∧ s.limit ≤ BitVec.ofNat 32 (s.acc.toNat % 2 ^ s.w.toNat)) :
    exec .bpPopValue s = raise .eIndexOutOfRange s := by
  simp only [exec, execBpPopValue, if_neg (not_not.2 unpack), if_neg count, if_neg (not_lt.2 ready), if_pos bound]

theorem bpPopValue_popped (count : s.vcount ≠ s.n) (ready : s.w.toNat ≤ s.accBits.toNat)
    (bound : ¬ (s.limit ≠ 0#32 ∧ s.limit ≤ BitVec.ofNat 32 (s.acc.toNat % 2 ^ s.w.toNat))) :
    exec .bpPopValue s = succeed { s with
      res0 := BitVec.ofNat 32 (s.acc.toNat % 2 ^ s.w.toNat)
      acc := s.acc >>> s.w.toNat
      accBits := s.accBits - s.w
      vcount := s.vcount + 1#32 } := by
  simp only [exec, execBpPopValue, if_neg (not_not.2 unpack), if_neg count, if_neg (not_lt.2 ready), if_neg bound]

end

end Sys2Proof.Proofs
end

section
/-! A stream cut in two: the bits taken out of it and, above them, the bits in ACC (44_bit_packer.md R150, R155, R159). Both
sides of the gearbox are this queue; the values of one side are the bytes of the other. -/

namespace Sys2Proof.Proofs

open Sys2Proof.Machine

/-- The stream integer T is made of `out`, its p low bits, and of acc above them. -/
structure Cut (p out acc T : Nat) : Prop where
  low : out < 2 ^ p
  sum : out + 2 ^ p * acc = T

section

variable {p out acc T : Nat}

theorem cut_of_div (h : acc = T / 2 ^ p) : Cut p (T % 2 ^ p) acc T :=
  ⟨Nat.mod_lt _ (by positivity), h ▸ Nat.mod_add_div T (2 ^ p)⟩

theorem Cut.acc_eq (h : Cut p out acc T) : acc = T / 2 ^ p := by
  rw [← h.sum, Nat.add_mul_div_left _ _ (by positivity), Nat.div_eq_of_lt h.low, Nat.zero_add]

/-- A number placed above a bits of acc extends the stream at its bit p + a. -/
theorem Cut.push (h : Cut p out acc T) (a v : Nat) : Cut p out (acc + v * 2 ^ a) (T + 2 ^ (p + a) * v) := by
  refine ⟨h.low, ?_⟩
  rw [← h.sum, pow_add]
  ring

/-- The k low bits of acc are the next k bits of the stream. -/
theorem Cut.pop (h : Cut p out acc T) (k : Nat) : Cut (p + k) (out + 2 ^ p * (acc % 2 ^ k)) (acc / 2 ^ k) T := by
  have hlow := h.low
  constructor
  · calc out + 2 ^ p * (acc % 2 ^ k) < 2 ^ p * (acc % 2 ^ k + 1) := by rw [Nat.mul_add]; omega
      _ ≤ 2 ^ p * 2 ^ k := Nat.mul_le_mul_left _ (Nat.mod_lt _ (by positivity))
      _ = 2 ^ (p + k) := (pow_add 2 p k).symm
  · rw [← h.sum, pow_add, Nat.add_assoc, Nat.mul_assoc, ← Nat.mul_add, Nat.mod_add_div]

end

/-! The numbers of a stream, read back from its stream integer -/

theorem streamInt_concat (w : Nat) (vs : List Nat) (v : Nat) :
    streamInt w (vs ++ [v]) = streamInt w vs + 2 ^ (vs.length * w) * v := by
  rw [streamInt_append]
  rfl

/-- Number i of a stream that starts with vs is vs[i], whatever follows. -/
theorem streamInt_getElem {w : Nat} {vs : List Nat} (fit : ∀ v ∈ vs, v < 2 ^ w) (rest : Nat) {i : Nat} (hi : i < vs.length) :
    (streamInt w vs + 2 ^ (vs.length * w) * rest) / 2 ^ (i * w) % 2 ^ w = vs[i] := by
  induction vs generalizing i with
  | nil => cases hi
  | cons v vs ih =>
    have hv : v < 2 ^ w := fit v (by simp)
    have hcons : streamInt w (v :: vs) + 2 ^ ((v :: vs).length * w) * rest =
        v + 2 ^ w * (streamInt w vs + 2 ^ (vs.length * w) * rest) := by
      rw [streamInt, List.length_cons, Nat.succ_mul, pow_add]
      ring
    rw [hcons]
    cases i with
    | zero => simp [Nat.mod_eq_of_lt hv]
    | succ i =>
      rw [Nat.succ_mul, Nat.add_comm (i * w), pow_add, ← Nat.div_div_eq_div_mul, Nat.add_mul_div_left _ _ (by positivity),
        Nat.div_eq_of_lt hv, Nat.zero_add]
      exact ih (fun u hu => fit u (by simp [hu])) (Nat.lt_of_succ_lt_succ hi)

/-- The first numbers of a stream are the list it starts with. -/
theorem map_streamInt_digits {w T rest : Nat} {vs : List Nat} (fit : ∀ v ∈ vs, v < 2 ^ w)
    (hT : streamInt w vs + 2 ^ (vs.length * w) * rest = T) :
    (List.range vs.length).map (fun i => T / 2 ^ (i * w) % 2 ^ w) = vs := by
  apply List.ext_getElem
  · simp
  · intro i _ hi
    simp [← hT, streamInt_getElem fit rest hi]

/-! Bytes and words as numbers -/

theorem byte_toNat_lt (us : List Byte) : ∀ u ∈ us.map (·.toNat), u < 2 ^ 8 := by
  intro u hu
  obtain ⟨b, -, rfl⟩ := List.mem_map.1 hu
  exact b.isLt

/-- Bytes with the stream integer of a packed stream are its bytes. -/
theorem packBytes_eq {w : Nat} {vs us : List Nat} (fit : ∀ u ∈ us, u < 2 ^ 8) (hlen : us.length = (vs.length * w + 7) / 8)
    (hT : streamInt 8 us = streamInt w vs) : us = packBytes w vs := by
  have hdigits := map_streamInt_digits (rest := 0) fit hT
  simp only [packBytes, ← hlen, Nat.mul_comm 8]
  exact hdigits.symm

/-- A stream whose bytes begin with the values vs unpacks to them. -/
theorem unpackValues_eq {w rest : Nat} {vs us : List Nat} (fit : ∀ v ∈ vs, v < 2 ^ w) (hlen : vs.length * w ≤ 8 * us.length)
    (hT : streamInt w vs + 2 ^ (vs.length * w) * rest = streamInt 8 us) : unpackValues w vs.length us = some vs := by
  rw [unpackValues, if_neg (not_lt.2 hlen), map_streamInt_digits fit hT]

/-- The bytes of a packed stream have its stream integer. -/
theorem streamInt_packBytes {w : Nat} {vs : List Nat} (fit : ∀ v ∈ vs, v < 2 ^ w) :
    streamInt 8 (packBytes w vs) = streamInt w vs := by
  have hbytes : ∀ u ∈ packBytes w vs, u < 2 ^ 8 := by
    intro u hu
    obtain ⟨j, -, rfl⟩ := List.mem_map.1 hu
    exact Nat.mod_lt _ (by decide)
  refine Nat.eq_of_testBit_eq fun j => ?_
  calc (streamInt 8 (packBytes w vs)).testBit j = (streamInt 8 (packBytes w vs)).testBit (j / 8 * 8 + j % 8) := by
        rw [Nat.div_add_mod']
    _ = ((packBytes w vs).getD (j / 8) 0).testBit (j % 8) := streamInt_testBit (Nat.mod_lt j (by decide)) hbytes _
    _ = (streamInt w vs).testBit j := packBytes_testBit fit j

/-- The round trip of the whole-stream functions (R150, R163). -/
theorem unpackValues_packBytes {w : Nat} {vs : List Nat} (fit : ∀ v ∈ vs, v < 2 ^ w) :
    unpackValues w vs.length (packBytes w vs) = some vs := by
  refine unpackValues_eq (rest := 0) fit ?_ (streamInt_packBytes fit).symm
  rw [packBytes_length]
  omega

end Sys2Proof.Proofs
end

section
/-! What the stream commands do to the cut (44_bit_packer.md R152 to R154, R160, R161): a push extends the stream, a pop moves
the cut, and a flush leaves both. -/

namespace Sys2Proof.Proofs

open Sys2Proof.Machine

/-- What a configuration alone sets: W, N, LIMIT and BNEED (R37, R39, R40). -/
theorem exec_stream_frame {i : Instr} {s t : State} (h : exec i s = .next t)
    (hi : i ∉ [Instr.bpCfgPack, .bpCfgUnpack, .bpStop, .reset]) :
    t.w = s.w ∧ t.n = s.n ∧ t.limit = s.limit ∧ t.bneed = s.bneed := by
  obtain ⟨c, -, -, rfl⟩ | ⟨u, effect, rfl⟩ := exec_inversion h
  · simp
  · cases effect <;> simp at hi ⊢

section

variable {s t : State}

theorem vcount_ne_of_lt (missing : s.vcount.toNat < s.n.toNat) : s.vcount ≠ s.n :=
  fun heq => missing.ne (congrArg BitVec.toNat heq)

variable {out T : Nat}

theorem flush_cut (he : exec .bpFlush s = .next t) (cut : Cut (8 * s.bcount.toNat) out s.acc.toNat T) :
    Cut (8 * t.bcount.toNat) out t.acc.toNat T := by
  obtain ⟨c, -, -, rfl⟩ | ⟨u, effect, rfl⟩ := exec_inversion he
  · simpa using cut
  · cases effect
    exact cut

variable (h : GearInv s)
include h

/-- With a value missing, nothing is padded yet: the bits pushed are those popped and those waiting (R155). -/
theorem pack_balance (pack : s.bpMode = .pack) (count : s.vcount ≠ s.n) :
    s.vcount.toNat * s.w.toNat = 8 * s.bcount.toNat + s.accBits.toNat := by
  obtain ⟨-, -, -, unflushed, flushed⟩ := gear_pack h pack
  exact unflushed (Bool.eq_false_iff.2 fun hf => count (flushed hf).1)

variable (hok : t.lastCode = .ok)
include hok

theorem pushValue_cut (he : exec .bpPushValue s = .next t) (cut : Cut (8 * s.bcount.toNat) out s.acc.toNat T) :
    Cut (8 * t.bcount.toNat) out t.acc.toNat (T + 2 ^ (s.vcount.toNat * s.w.toNat) * s.arg0.toNat) := by
  obtain ⟨u, effect, rfl⟩ := exec_succeeded he hok
  cases effect with
  | bpPushValue pack value count room =>
    have hw := h.width
    have hv := shifted_lt (a := s.accBits.toNat) (m := 40) (valueOperand_lt value) (by omega)
    rw [pack_balance h pack count, valueOperand_eq_self value, success_acc, accIn_toNat h.clean hv]
    exact cut.push _ _

theorem popByte_cut (he : exec .bpPopByte s = .next t) (cut : Cut (8 * s.bcount.toNat) out s.acc.toNat T) :
    t.res0.toNat = s.acc.toNat % 2 ^ 8 ∧
    Cut (8 * t.bcount.toNat) (out + 2 ^ (8 * s.bcount.toNat) * t.res0.toNat) t.acc.toNat T := by
  obtain ⟨u, effect, rfl⟩ := exec_succeeded he hok
  cases effect with
  | bpPopByte pack ready =>
    have hcount := bcount_succ h (bcount_ne_of_byteAvail h pack ready)
    have hres : ((s.acc.extractLsb' 0 8).setWidth 32).toNat = s.acc.toNat % 2 ^ 8 := by
      simp
      omega
    refine ⟨hres, ?_⟩
    rw [success_res0, success_acc, success_bcount, hres, hcount, BitVec.toNat_ushiftRight, Nat.shiftRight_eq_div_pow]
    exact cut.pop 8

theorem pushByte_cut (he : exec .bpPushByte s = .next t) (cut : Cut (s.vcount.toNat * s.w.toNat) out s.acc.toNat T) :
    Cut (t.vcount.toNat * t.w.toNat) out t.acc.toNat (T + 2 ^ (8 * s.bcount.toNat) * s.arg0.toNat) := by
  obtain ⟨u, effect, rfl⟩ := exec_succeeded he hok
  cases effect with
  | @bpPushByte b unpack running byte count room =>
    have hb : (b.setWidth 32).toNat < 2 ^ 8 := byte_setWidth_toNat b ▸ b.isLt
    rw [(gear_unpack h unpack).2, ← byteOperand_setWidth byte, success_acc,
      accIn_toNat h.clean (shifted_lt (m := 40) hb (by omega))]
    exact cut.push _ _

theorem popValue_cut (he : exec .bpPopValue s = .next t) (cut : Cut (s.vcount.toNat * s.w.toNat) out s.acc.toNat T) :
    t.res0.toNat = s.acc.toNat % 2 ^ s.w.toNat ∧
    Cut (t.vcount.toNat * t.w.toNat) (out + 2 ^ (s.vcount.toNat * s.w.toNat) * t.res0.toNat) t.acc.toNat T := by
  obtain ⟨u, effect, rfl⟩ := exec_succeeded he hok
  cases effect with
  | bpPopValue unpack count ready bound =>
    have hres : (BitVec.ofNat 32 (s.acc.toNat % 2 ^ s.w.toNat)).toNat = s.acc.toNat % 2 ^ s.w.toNat := by
      rw [BitVec.toNat_ofNat]
      refine Nat.mod_eq_of_lt ((Nat.mod_lt _ (by positivity)).trans_le ?_)
      exact Nat.pow_le_pow_right (by decide) h.width
    refine ⟨hres, ?_⟩
    rw [success_res0, success_acc, success_vcount, success_w, hres, vcount_succ h count, Nat.succ_mul,
      BitVec.toNat_ushiftRight, Nat.shiftRight_eq_div_pow]
    exact cut.pop _

end

/-! The invariant beside the gearbox: the report and ARG0 take no part in it -/

theorem gearInv_success {s : State} (h : GearInv s) : GearInv (success s) :=
  gearInv_of_sameGearbox h ⟨rfl, rfl, rfl, rfl, rfl, rfl, rfl, rfl, rfl, rfl, rfl⟩

theorem gearInv_with_arg0 {s : State} (h : GearInv s) (v : Word) : GearInv { s with arg0 := v } :=
  gearInv_of_sameGearbox h ⟨rfl, rfl, rfl, rfl, rfl, rfl, rfl, rfl, rfl, rfl, rfl⟩

/-- Settles O52: the cut of the stream of the values pushed, over each of the three commands. -/
theorem packRefinesStream : Obligations.PackRefinesStream := by
  intro s t vs h _ hlen _ hacc
  have cut := cut_of_div hacc
  refine ⟨fun he hok => ?push, fun he hok => ?pop, fun he _ => ?flush⟩
  case push =>
    rw [streamInt_concat, (exec_stream_frame he (by decide)).1, hlen]
    exact (pushValue_cut h hok he cut).acc_eq
  case pop =>
    obtain ⟨hres, hcut⟩ := popByte_cut h hok he cut
    rw [(exec_stream_frame he (by decide)).1]
    exact ⟨hacc ▸ hres, hcut.acc_eq⟩
  case flush =>
    rw [(exec_stream_frame he (by decide)).1]
    exact (flush_cut he cut).acc_eq

/-- Settles O53: the cut of the stream of the bytes pushed, over both commands. -/
theorem unpackRefinesStream : Obligations.UnpackRefinesStream := by
  intro s t us h _ hlen _ hacc
  have cut := cut_of_div hacc
  refine ⟨fun he hok => ?push, fun he hok => ?pop⟩
  case push =>
    rw [streamInt_concat, hlen, Nat.mul_comm s.bcount.toNat]
    exact (pushByte_cut h hok he cut).acc_eq
  case pop =>
    obtain ⟨hres, hcut⟩ := popValue_cut h hok he cut
    exact ⟨hacc ▸ hres, hcut.acc_eq⟩

end Sys2Proof.Proofs
end

section
/-! The pack law (44_bit_packer.md R155): what holds between the commands of the host's packing sequence, and the inductions
over the bytes waiting and the values to come. -/

namespace Sys2Proof.Proofs

open Sys2Proof.Machine

theorem bpByteAvail_iff (s : State) : bpByteAvail s = true ↔ s.bpMode = .pack ∧ 8 ≤ s.accBits.toNat := by
  simp [bpByteAvail]

/-- FLUSHED over the commands that do not set or clear it (R42). -/
theorem exec_flushed_frame {i : Instr} {s t : State} (h : exec i s = .next t)
    (hi : i ∉ [Instr.bpFlush, .bpCfgPack, .bpCfgUnpack, .bpStop, .reset]) : t.flushed = s.flushed := by
  obtain ⟨c, -, -, rfl⟩ | ⟨u, effect, rfl⟩ := exec_inversion h
  · simp
  · cases effect <;> simp at hi ⊢

/-- A PACK stream of n values of width w, into which vs have been pushed and from which bs have been popped; f is FLUSHED. -/
structure Packing (w n : Nat) (f : Bool) (vs : List Word) (bs : List Byte) (s : State) : Prop where
  gear : GearInv s
  pack : s.bpMode = .pack
  width : s.w.toNat = w
  total : s.n.toNat = n
  flushed : s.flushed = f
  pushed : s.vcount.toNat = vs.length
  popped : s.bcount.toNat = bs.length
  cut : Cut (8 * s.bcount.toNat) (streamInt 8 (bs.map (·.toNat))) s.acc.toNat (streamInt w (vs.map (·.toNat)))

section

variable {w n fuel : Nat} {f : Bool} {vs : List Word} {bs : List Byte} {s : State}

/-! One command -/

theorem packing_fresh (width : s.arg1.toNat ≤ 32) :
    ∃ t, okState (exec .bpCfgPack s) = some t ∧ Packing s.arg1.toNat s.arg0.toNat false [] [] t ∧ t.accBits.toNat < 8 := by
  have hw : (BitVec.ofNat 6 s.arg1.toNat).toNat = s.arg1.toNat := widthBits_toNat width
  have hgear := gearInv_freshStream (m := .pack) (n := s.arg0) s (hw.trans_le width) (.inl ⟨rfl, rfl⟩)
  exact ⟨_, okState_eq_some_iff.2 ⟨bpCfgPack_fresh width, rfl⟩,
    { gear := gearInv_success hgear
      pack := rfl
      width := hw
      total := rfl
      flushed := rfl
      pushed := rfl
      popped := rfl
      cut := ⟨Nat.one_pos, rfl⟩ },
    Nat.zero_lt_succ 7⟩

theorem Packing.with_arg0 (h : Packing w n f vs bs s) (v : Word) : Packing w n f vs bs { s with arg0 := v } where
  gear := gearInv_with_arg0 h.gear v
  pack := h.pack
  width := h.width
  total := h.total
  flushed := h.flushed
  pushed := h.pushed
  popped := h.popped
  cut := h.cut

theorem packing_pushValue (h : Packing w n f vs bs s) (fits : s.arg0.toNat < 2 ^ w) (missing : vs.length < n)
    (room : s.accBits.toNat < 8) :
    ∃ t, okState (exec .bpPushValue s) = some t ∧ Packing w n f (vs ++ [s.arg0]) bs t := by
  have count : s.vcount ≠ s.n := vcount_ne_of_lt (by rwa [h.pushed, h.total])
  obtain ⟨t, he, hok⟩ : ∃ t, exec .bpPushValue s = .next t ∧ t.lastCode = .ok :=
    ⟨_, bpPushValue_pushed h.pack (h.width ▸ fits) count room, rfl⟩
  obtain ⟨hw, hn, -, -⟩ := exec_stream_frame he (by decide)
  obtain ⟨hv, hb⟩ := (streamCountersMoveByOne _ _ _ h.gear he).1 (by decide) hok
  have hcut := pushValue_cut h.gear hok he h.cut
  rw [h.pushed, h.width] at hcut
  exact ⟨t, okState_eq_some_iff.2 ⟨he, hok⟩,
    { gear := exec_keeps_gearInv h.gear he
      pack := (exec_bpMode_frame he (by decide)).trans h.pack
      width := hw ▸ h.width
      total := hn ▸ h.total
      flushed := (exec_flushed_frame he (by decide)).trans h.flushed
      pushed := by rw [hv, h.pushed, List.length_append, List.length_singleton]
      popped := hb ▸ h.popped
      cut := by
        rw [List.map_append, List.map_singleton, streamInt_concat, List.length_map]
        exact hcut }⟩

theorem packing_popByte (h : Packing w n f vs bs s) (ready : 8 ≤ s.accBits.toNat) :
    ∃ t, okState (exec .bpPopByte s) = some t ∧ Packing w n f vs (bs ++ [t.res0.setWidth 8]) t ∧
      t.accBits.toNat = s.accBits.toNat - 8 := by
  obtain ⟨t, he, hok, hbits⟩ : ∃ t, exec .bpPopByte s = .next t ∧ t.lastCode = .ok ∧
      t.accBits.toNat = s.accBits.toNat - 8 :=
    ⟨_, bpPopByte_popped h.pack ready, rfl, BitVec.toNat_sub_of_le ready⟩
  obtain ⟨hw, hn, -, -⟩ := exec_stream_frame he (by decide)
  obtain ⟨hb, hv⟩ := (streamCountersMoveByOne _ _ _ h.gear he).2.1 (by decide) hok
  obtain ⟨hres, hcut⟩ := popByte_cut h.gear hok he h.cut
  have hbyte : (t.res0.setWidth 8).toNat = t.res0.toNat := by
    rw [BitVec.toNat_setWidth, hres, Nat.mod_mod]
  rw [h.popped] at hcut
  exact ⟨t, okState_eq_some_iff.2 ⟨he, hok⟩,
    { gear := exec_keeps_gearInv h.gear he
      pack := (exec_bpMode_frame he (by decide)).trans h.pack
      width := hw ▸ h.width
      total := hn ▸ h.total
      flushed := (exec_flushed_frame he (by decide)).trans h.flushed
      pushed := hv ▸ h.pushed
      popped := by rw [hb, h.popped, List.length_append, List.length_singleton]
      cut := by
        rw [List.map_append, List.map_singleton, streamInt_concat, List.length_map, hbyte, Nat.mul_comm bs.length]
        exact hcut },
    hbits⟩

theorem packing_flush (h : Packing w n f vs bs s) (complete : vs.length = n) (room : s.accBits.toNat < 8) :
    ∃ t, okState (exec .bpFlush s) = some t ∧ Packing w n true vs bs t := by
  have count : s.vcount = s.n := BitVec.eq_of_toNat_eq (by rw [h.pushed, complete, h.total])
  obtain ⟨t, he, hok, hflushed⟩ : ∃ t, exec .bpFlush s = .next t ∧ t.lastCode = .ok ∧ t.flushed = true :=
    ⟨_, bpFlush_flushed h.pack count room, rfl, rfl⟩
  obtain ⟨hw, hn, -, -⟩ := exec_stream_frame he (by decide)
  obtain ⟨hv, hb⟩ := exec_counters_frame he (by decide)
  exact ⟨t, okState_eq_some_iff.2 ⟨he, hok⟩,
    { gear := exec_keeps_gearInv h.gear he
      pack := (exec_bpMode_frame he (by decide)).trans h.pack
      width := hw ▸ h.width
      total := hn ▸ h.total
      flushed := hflushed
      pushed := hv ▸ h.pushed
      popped := hb ▸ h.popped
      cut := flush_cut he h.cut }⟩

/-! The sequence -/

/-- The pops after a push or a flush take every whole byte that waits. -/
theorem popBytes_packing (h : Packing w n f vs bs s) (enough : s.accBits.toNat < 8 * fuel + 8) :
    ∃ out t, popBytes fuel s = some (out, t) ∧ Packing w n f vs (bs ++ out) t ∧ t.accBits.toNat < 8 := by
  induction fuel generalizing bs s with
  | zero => exact ⟨[], s, rfl, by rwa [List.append_nil], by omega⟩
  | succ fuel ih =>
    by_cases avail : bpByteAvail s = true
    · obtain ⟨u, hu, hpop, hbits⟩ := packing_popByte h ((bpByteAvail_iff s).1 avail).2
      obtain ⟨out, t, ht, hpops, hleft⟩ := ih hpop (by omega)
      refine ⟨u.res0.setWidth 8 :: out, t, ?_, by simpa using hpops, hleft⟩
      rw [popBytes, if_pos avail, hu, Option.bind_some, ht, Option.map_some]
    · refine ⟨[], s, if_neg avail, by rwa [List.append_nil], ?_⟩
      by_contra hready
      exact avail ((bpByteAvail_iff s).2 ⟨h.pack, not_lt.1 hready⟩)

/-- At most 39 bits ever wait in PACK, so five pops take every whole byte. -/
theorem popBytes_five_packing (h : Packing w n f vs bs s) :
    ∃ out t, popBytes 5 s = some (out, t) ∧ Packing w n f vs (bs ++ out) t ∧ t.accBits.toNat < 8 := by
  obtain ⟨-, -, hbits, -⟩ := gear_pack h.gear h.pack
  exact popBytes_packing h (by omega)

/-- The pushes and their pops keep the sequence's invariant and leave no whole byte waiting. -/
theorem pushValues_packing {rest : List Word} (h : Packing w n f vs bs s) (room : s.accBits.toNat < 8)
    (fit : ∀ v ∈ rest, v.toNat < 2 ^ w) (total : vs.length + rest.length = n) :
    ∃ out t, pushValues rest s = some (out, t) ∧ Packing w n f (vs ++ rest) (bs ++ out) t ∧ t.accBits.toNat < 8 := by
  induction rest generalizing vs bs s with
  | nil => exact ⟨[], s, rfl, by simpa using h, room⟩
  | cons v rest ih =>
    rw [List.length_cons] at total
    obtain ⟨u, hu, hpush⟩ := packing_pushValue (h.with_arg0 v) (fit v List.mem_cons_self) (by omega) room
    obtain ⟨out, t, ht, hpops, hroom⟩ := popBytes_five_packing hpush
    obtain ⟨out', t', ht', hpushes, hroom'⟩ := ih hpops hroom (fun v hv => fit v (List.mem_cons_of_mem _ hv))
      (by rw [List.length_append, List.length_singleton]; omega)
    refine ⟨out ++ out', t', ?_, by simpa using hpushes, hroom'⟩
    rw [pushValues, hu, Option.bind_some, ht, Option.bind_some, ht', Option.map_some]

end

theorem lengthWord_toNat {vs : List Word} (hlen : vs.length < 2 ^ 32) : (BitVec.ofNat 32 vs.length).toNat = vs.length := by
  rw [BitVec.toNat_ofNat, Nat.mod_eq_of_lt hlen]

/-- The whole sequence succeeds, with every value pushed, the stream flushed and no whole byte waiting. -/
theorem packRun_packing (s : State) {w : Word} {vs : List Word} (width : w.toNat ≤ 32) (hlen : vs.length < 2 ^ 32)
    (fit : ∀ v ∈ vs, v.toNat < 2 ^ w.toNat) :
    ∃ bs t, packRun w vs s = some (bs, t) ∧ Packing w.toNat vs.length true vs bs t ∧ t.accBits.toNat < 8 := by
  have hn : (BitVec.ofNat 32 vs.length).toNat = vs.length := lengthWord_toNat hlen
  obtain ⟨t, ht, hfresh, hroom⟩ := packing_fresh (s := { s with arg0 := BitVec.ofNat 32 vs.length, arg1 := w }) width
  obtain ⟨bs, u, hu, hpushed, hroom⟩ := pushValues_packing (rest := vs) hfresh hroom fit ((Nat.zero_add _).trans hn.symm)
  obtain ⟨x, hx, hflushed⟩ := packing_flush hpushed hn.symm hroom
  obtain ⟨bs', y, hy, hpopped, hleft⟩ := popBytes_five_packing hflushed
  refine ⟨bs ++ bs', y, ?_, hn ▸ hpopped, hleft⟩
  rw [packRun, ht, Option.bind_some, hu, Option.bind_some, hx, Option.bind_some, hy, Option.map_some]

/-- A flushed stream with no whole byte waiting has given all its bytes. -/
theorem packing_drained {w n : Nat} {vs : List Word} {bs : List Byte} {s : State} (h : Packing w n true vs bs s)
    (short : s.accBits.toNat < 8) :
    s.accBits.toNat = 0 ∧ s.vcount = s.n ∧ s.bcount = s.bneed ∧
      streamInt 8 (bs.map (·.toNat)) = streamInt w (vs.map (·.toNat)) := by
  obtain ⟨-, -, -, -, flushed⟩ := gear_pack h.gear h.pack
  obtain ⟨hall, hbalance, -⟩ := flushed h.flushed
  have hempty : s.accBits.toNat = 0 := by omega
  have hacc : s.acc.toNat = 0 := by
    have hclean := h.gear.clean
    rwa [hempty, pow_zero, Nat.lt_one_iff] at hclean
  refine ⟨hempty, hall, BitVec.eq_of_toNat_eq (by omega), ?_⟩
  rw [← h.cut.sum, hacc, Nat.mul_zero, Nat.add_zero]

/-- Settles O54: the packing sequence ends with the stream drained, and its bytes are then those of the stream integer. -/
theorem packLaw : Obligations.PackLaw := by
  intro s w vs width hlen fit
  obtain ⟨bs, t, hrun, h, short⟩ := packRun_packing s width hlen fit
  obtain ⟨hempty, hall, hbytes, hstream⟩ := packing_drained h short
  have hcount : bs.length = (vs.length * w.toNat + 7) / 8 := by
    rw [← h.popped, hbytes, h.gear.need, h.total, h.width]
  refine ⟨bs, t, hrun, ?_, hcount, hbytes, h.popped, (bpDone_iff t).2 (.inl ⟨h.pack, hall, h.flushed, hempty⟩)⟩
  exact packBytes_eq (byte_toNat_lt bs) (by simpa using hcount) hstream

end Sys2Proof.Proofs
end

section
/-! The unpack contract (44_bit_packer.md R159; 70_reset_and_hazards.md R235): what holds between the commands of the host's
reads, and the inductions over the bytes a value still needs and the values to come. -/

namespace Sys2Proof.Proofs

open Sys2Proof.Machine

/-- END over the commands that do not set or clear it (R42). -/
theorem exec_ended_frame {i : Instr} {s t : State} (h : exec i s = .next t)
    (hi : i ∉ [Instr.bpEnd, .bpCfgPack, .bpCfgUnpack, .bpStop, .reset]) : t.ended = s.ended := by
  obtain ⟨c, -, -, rfl⟩ | ⟨u, effect, rfl⟩ := exec_inversion h
  · simp
  · cases effect <;> simp at hi ⊢

/-- An open UNPACK stream of n values of width w without a bound, into which the bytes us have been pushed and from which the
values vs have been read. -/
structure Unpacking (w n : Nat) (us : List Byte) (vs : List Word) (s : State) : Prop where
  gear : GearInv s
  unpack : s.bpMode = .unpack
  width : s.w.toNat = w
  total : s.n.toNat = n
  unbounded : s.limit = 0#32
  running : s.ended = false
  pushed : s.bcount.toNat = us.length
  popped : s.vcount.toNat = vs.length
  fit : ∀ v ∈ vs, v.toNat < 2 ^ w
  cut : Cut (s.vcount.toNat * s.w.toNat) (streamInt w (vs.map (·.toNat))) s.acc.toNat (streamInt 8 (us.map (·.toNat)))

section

variable {w n : Nat} {us : List Byte} {vs : List Word} {s : State}

/-- The bits pushed are the bits read and the bits waiting. -/
theorem Unpacking.balance (h : Unpacking w n us vs s) : 8 * us.length = vs.length * w + s.accBits.toNat := by
  rw [← h.pushed, ← h.popped, ← h.width]
  exact (gear_unpack h.gear h.unpack).2

theorem Unpacking.vcount_ne (h : Unpacking w n us vs s) (missing : vs.length < n) : s.vcount ≠ s.n :=
  vcount_ne_of_lt (by rwa [h.popped, h.total])

theorem Unpacking.with_arg0 (h : Unpacking w n us vs s) (v : Word) : Unpacking w n us vs { s with arg0 := v } where
  gear := gearInv_with_arg0 h.gear v
  unpack := h.unpack
  width := h.width
  total := h.total
  unbounded := h.unbounded
  running := h.running
  pushed := h.pushed
  popped := h.popped
  fit := h.fit
  cut := h.cut

theorem Unpacking.report (h : Unpacking w n us vs s) (c : StatusCode) : Unpacking w n us vs (report c s) where
  gear := gearInv_of_sameGearbox h.gear (sameGearbox_report c s)
  unpack := (report_bpMode c s).trans h.unpack
  width := by rw [report_w, h.width]
  total := by rw [report_n, h.total]
  unbounded := (report_limit c s).trans h.unbounded
  running := (report_ended c s).trans h.running
  pushed := by rw [report_bcount, h.pushed]
  popped := by rw [report_vcount, h.popped]
  fit := h.fit
  cut := by
    rw [report_vcount, report_w, report_acc]
    exact h.cut

/-! One command -/

theorem unpacking_fresh (width : s.arg1.toNat ≤ 32) (unbounded : s.arg2 = 0#32) :
    ∃ t, okState (exec .bpCfgUnpack s) = some t ∧ Unpacking s.arg1.toNat s.arg0.toNat [] [] t := by
  have hw : (BitVec.ofNat 6 s.arg1.toNat).toNat = s.arg1.toNat := widthBits_toNat width
  have hgear := gearInv_freshStream (m := .unpack) (n := s.arg0) (limit := s.arg2) s (hw.trans_le width) (.inr rfl)
  exact ⟨_, okState_eq_some_iff.2 ⟨bpCfgUnpack_fresh width, rfl⟩,
    { gear := gearInv_success hgear
      unpack := rfl
      width := hw
      total := rfl
      unbounded := unbounded
      running := rfl
      pushed := rfl
      popped := rfl
      fit := nofun
      cut := by
        rw [success_vcount, freshStream_vcount, State.reset, BitVec.toNat_zero, Nat.zero_mul]
        exact ⟨Nat.one_pos, rfl⟩ }⟩

/-- A stream that waits for bits of a value still takes bytes (R164). -/
theorem bcount_ne_of_short (h : GearInv s) (unpack : s.bpMode = .unpack) (count : s.vcount ≠ s.n)
    (short : s.accBits.toNat < s.w.toNat) : s.bcount ≠ s.bneed := by
  intro heq
  have hbalance := (gear_unpack h unpack).2
  have hvalues : (s.vcount.toNat + 1) * s.w.toNat ≤ s.n.toNat * s.w.toNat := Nat.mul_le_mul_right _ (vcount_lt h count)
  rw [heq, h.need] at hbalance
  rw [Nat.succ_mul] at hvalues
  omega

theorem unpacking_pushByte (h : Unpacking w n us vs s) (u : Byte) (missing : vs.length < n) (short : s.accBits.toNat < w) :
    ∃ t, okState (exec .bpPushByte { s with arg0 := u.setWidth 32 }) = some t ∧ Unpacking w n (us ++ [u]) vs t ∧
      t.accBits.toNat = s.accBits.toNat + 8 := by
  have hu := byte_setWidth_toNat u
  have hroom : s.accBits.toNat < s.w.toNat := by rwa [h.width]
  have hwidth := h.gear.width
  have hbits : (s.accBits + 8#6).toNat = s.accBits.toNat + 8 := by
    rw [BitVec.toNat_add]
    exact Nat.mod_eq_of_lt (by simp; omega)
  have count := bcount_ne_of_short h.gear h.unpack (h.vcount_ne missing) hroom
  have h' := h.with_arg0 (u.setWidth 32)
  obtain ⟨t, he, hok, hbits⟩ : ∃ t, exec .bpPushByte { s with arg0 := u.setWidth 32 } = .next t ∧ t.lastCode = .ok ∧
      t.accBits.toNat = s.accBits.toNat + 8 :=
    ⟨_, bpPushByte_pushed h'.unpack h'.running (hu.trans_lt u.isLt) count (by dsimp only; omega), rfl, hbits⟩
  obtain ⟨hw, hn, hlimit, -⟩ := exec_stream_frame he (by decide)
  obtain ⟨hb, hv⟩ := (streamCountersMoveByOne _ _ _ h'.gear he).2.1 (by decide) hok
  have hcut := pushByte_cut h'.gear hok he h'.cut
  rw [h'.pushed, hu] at hcut
  exact ⟨t, okState_eq_some_iff.2 ⟨he, hok⟩,
    { gear := exec_keeps_gearInv h'.gear he
      unpack := (exec_bpMode_frame he (by decide)).trans h'.unpack
      width := hw ▸ h'.width
      total := hn ▸ h'.total
      unbounded := hlimit.trans h'.unbounded
      running := (exec_ended_frame he (by decide)).trans h'.running
      pushed := by rw [hb, h'.pushed, List.length_append, List.length_singleton]
      popped := hv ▸ h'.popped
      fit := h.fit
      cut := by
        rw [List.map_append, List.map_singleton, streamInt_concat, List.length_map, Nat.mul_comm us.length]
        exact hcut },
    hbits⟩

theorem unpacking_popValue (h : Unpacking w n us vs s) (missing : vs.length < n) (ready : w ≤ s.accBits.toNat) :
    ∃ t, exec .bpPopValue s = .next t ∧ t.lastCode = .ok ∧ Unpacking w n us (vs ++ [t.res0]) t := by
  obtain ⟨t, he, hok⟩ : ∃ t, exec .bpPopValue s = .next t ∧ t.lastCode = .ok :=
    ⟨_, bpPopValue_popped h.unpack (h.vcount_ne missing) (h.width ▸ ready) (by simp [h.unbounded]), rfl⟩
  obtain ⟨hw, hn, hlimit, -⟩ := exec_stream_frame he (by decide)
  obtain ⟨hv, hb⟩ := (streamCountersMoveByOne _ _ _ h.gear he).1 (by decide) hok
  obtain ⟨hres, hcut⟩ := popValue_cut h.gear hok he h.cut
  rw [h.popped, h.width] at hcut
  exact ⟨t, he, hok,
    { gear := exec_keeps_gearInv h.gear he
      unpack := (exec_bpMode_frame he (by decide)).trans h.unpack
      width := hw ▸ h.width
      total := hn ▸ h.total
      unbounded := hlimit.trans h.unbounded
      running := (exec_ended_frame he (by decide)).trans h.running
      pushed := hb ▸ h.pushed
      popped := by rw [hv, h.popped, List.length_append, List.length_singleton]
      fit := by
        intro v hmem
        obtain hmem | rfl := (List.mem_append.1 hmem).imp_right List.mem_singleton.1
        · exact h.fit v hmem
        · rw [hres, h.width]
          exact Nat.mod_lt _ (by positivity)
      cut := by
        rw [List.map_append, List.map_singleton, streamInt_concat, List.length_map]
        exact hcut }⟩

/-! The reads -/

theorem popValue_ready {t : State} (fuel : Nat) (rest : List Byte) (he : exec .bpPopValue s = .next t)
    (hok : t.lastCode = .ok) : popValue (fuel + 1) rest s = some (t.res0, rest, t) := by
  simp only [popValue, he, if_pos hok]

theorem popValue_underrun (fuel : Nat) (u : Byte) (rest : List Byte) (he : exec .bpPopValue s = raise .eUnderrun s) :
    popValue (fuel + 1) (u :: rest) s =
      (okState (exec .bpPushByte { report .eUnderrun s with arg0 := u.setWidth 32 })).bind (popValue fuel rest) := by
  simp [popValue, he]

variable {all rest : List Byte}

/-- The values read are the first of the stream of all the bytes, those still to come included. -/
theorem unpackValues_of_unpacking (h : Unpacking w n us vs s) (hall : us ++ rest = all) :
    unpackValues w vs.length (all.map (·.toNat)) = some (vs.map (·.toNat)) := by
  have hbalance := h.balance
  have hcut := h.cut.push s.accBits.toNat (streamInt 8 (rest.map (·.toNat)))
  rw [h.popped, h.width, ← hbalance] at hcut
  have fit : ∀ v ∈ vs.map (·.toNat), v < 2 ^ w := by
    intro v hv
    obtain ⟨x, hx, rfl⟩ := List.mem_map.1 hv
    exact h.fit x hx
  have hstream : streamInt 8 (all.map (·.toNat)) =
      streamInt 8 (us.map (·.toNat)) + 2 ^ (8 * us.length) * streamInt 8 (rest.map (·.toNat)) := by
    rw [← hall, List.map_append, streamInt_append, List.length_map, Nat.mul_comm us.length]
  have hlen := congrArg List.length hall
  rw [List.length_append] at hlen
  rw [← List.length_map (as := vs) (·.toNat)] at hcut ⊢
  refine unpackValues_eq fit ?_ (hcut.sum.trans hstream.symm)
  rw [List.length_map, List.length_map]
  omega

variable (enough : n * w ≤ 8 * all.length)
include enough

/-- A read gives the next value where the bytes to come, at most one a retry, hold the bits it misses. -/
theorem popValue_unpacking {fuel : Nat} (h : Unpacking w n us vs s) (hall : us ++ rest = all) (missing : vs.length < n)
    (tries : w ≤ s.accBits.toNat + 8 * fuel) :
    ∃ v us' rest' t, popValue (fuel + 1) rest s = some (v, rest', t) ∧ us' ++ rest' = all ∧
      Unpacking w n us' (vs ++ [v]) t := by
  induction fuel generalizing us rest s with
  | zero =>
    obtain ⟨t, he, hok, hpop⟩ := unpacking_popValue h missing tries
    exact ⟨t.res0, us, rest, t, popValue_ready 0 rest he hok, hall, hpop⟩
  | succ fuel ih =>
    obtain ready | short := le_or_gt w s.accBits.toNat
    · obtain ⟨t, he, hok, hpop⟩ := unpacking_popValue h missing ready
      exact ⟨t.res0, us, rest, t, popValue_ready _ rest he hok, hall, hpop⟩
    · have hshort : s.accBits.toNat < s.w.toNat := h.width ▸ short
      have hheld : exec .bpPopValue s = raise .eUnderrun s := by
        rw [bpPopValue_short h.unpack (h.vcount_ne missing) hshort, h.running]
        rfl
      cases rest with
      | nil =>
        have hbalance := h.balance
        have hvalues : (vs.length + 1) * w ≤ n * w := Nat.mul_le_mul_right _ missing
        rw [Nat.succ_mul] at hvalues
        rw [← hall, List.append_nil] at enough
        omega
      | cons u rest =>
        obtain ⟨t, ht, hpush, hbits⟩ := unpacking_pushByte (h.report .eUnderrun) u missing (by rwa [report_accBits])
        rw [report_accBits] at hbits
        obtain ⟨v, us', rest', t', hpop, hall', h'⟩ := ih hpush (by simpa using hall) (by omega)
        refine ⟨v, us', rest', t', ?_, hall', h'⟩
        rw [popValue_underrun _ u rest hheld, ht, Option.bind_some, hpop]

/-- The reads of the values still missing all succeed. -/
theorem popValues_unpacking {k : Nat} (h : Unpacking w n us vs s) (hall : us ++ rest = all) (count : vs.length + k = n) :
    ∃ out us' rest' t, popValues k rest s = some (out, t) ∧ out.length = k ∧ us' ++ rest' = all ∧
      Unpacking w n us' (vs ++ out) t := by
  induction k generalizing us vs rest s with
  | zero => exact ⟨[], us, rest, s, rfl, rfl, hall, by rwa [List.append_nil]⟩
  | succ k ih =>
    have hwidth := h.gear.width
    rw [h.width] at hwidth
    obtain ⟨v, us', rest', t, hpop, hall', h'⟩ := popValue_unpacking enough (fuel := 5) h hall (by omega) (by omega)
    obtain ⟨out, us'', rest'', t', hpops, hlen, hall'', h''⟩ := ih h' hall' (by
      rw [List.length_append, List.length_singleton]; omega)
    refine ⟨v :: out, us'', rest'', t', ?_, by rw [List.length_cons, hlen], hall'', by simpa using h''⟩
    rw [popValues, hpop, Option.bind_some, hpops, Option.map_some]

end

/-- Settles O55: the reads take the values off the stream of all the bytes. -/
theorem unpackContract : Obligations.UnpackContract := by
  intro s n w us width enough
  obtain ⟨t, ht, hfresh⟩ := unpacking_fresh (s := { s with arg0 := n, arg1 := w, arg2 := 0#32 }) width rfl
  obtain ⟨vs, us', rest', u, hpops, hlen, hall, h⟩ :=
    popValues_unpacking enough hfresh (List.nil_append us) (Nat.zero_add n.toNat)
  refine ⟨vs, u, ?_, ?_⟩
  · rw [unpackRun, ht, Option.bind_some, hpops]
  · rw [← hlen]
    exact unpackValues_of_unpacking h hall

end Sys2Proof.Proofs
end

section
/-! The round trip (44_bit_packer.md R163): the pack law, the unpack contract and the whole-stream functions' own round trip. -/

namespace Sys2Proof.Proofs

open Sys2Proof.Machine

/-- Settles O56: the reads give what the packed bytes unpack to, which are the values packed. -/
theorem roundTrip : Obligations.RoundTrip := by
  intro s s' w vs width hlen fit
  obtain ⟨bs, t, hpack, hbytes, hcount, -⟩ := packLaw s w vs width hlen fit
  have hn := lengthWord_toNat hlen
  have enough : (BitVec.ofNat 32 vs.length).toNat * w.toNat ≤ 8 * bs.length := by
    rw [hn, hcount]
    omega
  obtain ⟨vs', u, hunpack, hvalues⟩ := unpackContract s' (BitVec.ofNat 32 vs.length) w bs width enough
  have hfit : ∀ v ∈ vs.map (·.toNat), v < 2 ^ w.toNat := by simpa using fit
  have hsame : vs.map (·.toNat) = vs'.map (·.toNat) := by
    have hround := unpackValues_packBytes hfit
    rw [← hbytes, List.length_map, ← hn, hvalues] at hround
    exact (Option.some_inj.1 hround).symm
  obtain rfl : vs = vs' := List.map_injective_iff.2 (fun _ _ => BitVec.eq_of_toNat_eq) hsame
  exact ⟨bs, t, u, hpack, hunpack⟩

end Sys2Proof.Proofs
end

section
/-! The statements about one gearbox command (44_bit_packer.md R151 to R154, R157, R158, R160 to R162, R164). -/

namespace Sys2Proof.Proofs

open Sys2Proof.Machine

/-! The new values of the fields, as numbers -/

/-- What a configuration of a legal width leaves, with the byte count as a number (R151, R157). -/
theorem freshStream_eq {m : BpMode} {a need : Nat} (ha : a ≤ 32) (n limit : Word) (s : State)
    (hneed : need = (n.toNat * a + 7) / 8) :
    need < 2 ^ 64 ∧ succeed (freshStream m (BitVec.ofNat 6 a) n limit s) = .next { s with
      bpMode := m, w := BitVec.ofNat 6 a, n := n, vcount := 0#32, bcount := 0#64
      bneed := BitVec.ofNat 64 need, limit := limit, acc := 0#40, accBits := 0#6, ended := false, flushed := false
      res0 := BitVec.ofNat 32 (need % 2 ^ 32), res1 := BitVec.ofNat 32 (need / 2 ^ 32), lastCode := .ok } := by
  have hw := widthBits_toNat ha
  have hbytes : bytesNeeded n (BitVec.ofNat 6 a) = BitVec.ofNat 64 need := by rw [bytesNeeded, hw, hneed]
  have hexact : (BitVec.ofNat 64 need).toNat = need := by
    rw [← hbytes, bytesNeeded_toNat n (hw.trans_le ha), hw, hneed]
  refine ⟨hexact ▸ (BitVec.ofNat 64 need).isLt, ?_⟩
  simp only [succeed_eq, success, freshStream, hbytes, loWord_eq, hiWord_eq, hexact]

/-- ACC with a value placed above its bits, as the sum. -/
theorem accIn_eq {acc : BitVec 40} {bits : BitVec 6} {v : Word} {k : Nat} (clean : acc.toNat < 2 ^ bits.toNat)
    (hv : v.toNat < 2 ^ k) (fits : bits.toNat + k ≤ 40) :
    accIn acc bits v = BitVec.ofNat 40 (acc.toNat + v.toNat * 2 ^ bits.toNat) := by
  rw [← accIn_toNat clean (shifted_lt hv fits), BitVec.ofNat_toNat, BitVec.setWidth_eq]

/-- ACC without its k low bits, as the quotient. -/
theorem acc_ushiftRight_eq (acc : BitVec 40) (k : Nat) : acc >>> k = BitVec.ofNat 40 (acc.toNat / 2 ^ k) := by
  rw [← Nat.shiftRight_eq_div_pow, ← BitVec.toNat_ushiftRight, BitVec.ofNat_toNat, BitVec.setWidth_eq]

/-- ACC_BITS less the bits taken, as the difference. -/
theorem accBits_sub_eq {bits k : BitVec 6} (hk : k.toNat ≤ bits.toNat) : bits - k = BitVec.ofNat 6 (bits.toNat - k.toNat) := by
  rw [← BitVec.toNat_sub_of_le hk, BitVec.ofNat_toNat, BitVec.setWidth_eq]

/-- The low byte of ACC, as the remainder. -/
theorem accByte_eq (acc : BitVec 40) : (acc.extractLsb' 0 8).setWidth 32 = BitVec.ofNat 32 (acc.toNat % 256) :=
  BitVec.eq_of_toNat_eq (by simp)

/-! PACK -/

/-- Settles O43: the two cases of BP_CFG_PACK. -/
theorem configurePack : Obligations.ConfigurePack := by
  refine ⟨decode_bpCfgPack, fun s need hneed => ⟨fun wide => reportsOnly_of_raise (bpCfgPack_refused wide), fun width => ?_⟩⟩
  rw [bpCfgPack_fresh width]
  exact freshStream_eq width s.arg0 0#32 s hneed

/-- Settles O44: the cases of BP_PUSH_VALUE; the gearbox invariant leaves room for the value above the bits waiting. -/
theorem pushValue : Obligations.PushValue := by
  refine ⟨decode_bpPushValue, fun s => ⟨?refused, ?unfit, ?complete, ?held, ?pushed⟩⟩
  case refused => exact fun h => reportsOnly_of_raise (bpPushValue_refused h)
  case unfit => exact fun pack unfit => reportsOnly_of_raise (bpPushValue_unfit pack unfit)
  case complete => exact fun pack fits count => reportsOnly_of_raise (bpPushValue_complete pack fits count)
  case held => exact fun pack fits count full => reportsOnly_of_raise (bpPushValue_held pack fits count full)
  case pushed =>
    intro pack fits count room h
    have hw := h.width
    rw [bpPushValue_pushed pack fits count room, accIn_eq h.clean fits (by omega)]
    rfl

/-- Settles O45: the cases of BP_POP_BYTE. -/
theorem popByte : Obligations.PopByte := by
  refine ⟨decode_bpPopByte, fun s => ⟨?refused, ?held, ?popped⟩⟩
  case refused => exact fun h => reportsOnly_of_raise (bpPopByte_refused h)
  case held => exact fun pack short => reportsOnly_of_raise (bpPopByte_held pack short)
  case popped =>
    intro pack ready
    rw [bpPopByte_popped pack ready, accByte_eq, acc_ushiftRight_eq, accBits_sub_eq (k := 8#6) ready]
    rfl

/-- With all values pushed and no whole byte waiting, the bits waiting are what N*W lacks of whole bytes popped (R154). -/
theorem accBits_eq_zero_of_aligned {s : State} (h : GearInv s) (pack : s.bpMode = .pack) (count : s.vcount = s.n)
    (room : s.accBits.toNat < 8) (aligned : s.n.toNat * s.w.toNat % 8 = 0) : s.accBits.toNat = 0 := by
  obtain ⟨-, -, -, unflushed, flushed⟩ := gear_pack h pack
  cases hf : s.flushed with
  | false =>
    have hbalance := unflushed hf
    rw [count] at hbalance
    omega
  | true =>
    have hbalance := (flushed hf).2.1
    omega

/-- Settles O46: the cases of BP_FLUSH; the padding bits are those at and above ACC_BITS, which the invariant keeps clear. -/
theorem flushStream : Obligations.FlushStream := by
  refine ⟨decode_bpFlush, fun s => ⟨?refused, ?incomplete, ?held, fun pack count room => ⟨?none, ?some, ?aligned⟩⟩⟩
  case refused => exact fun h => reportsOnly_of_raise (bpFlush_refused h)
  case incomplete => exact fun pack missing => reportsOnly_of_raise (bpFlush_incomplete pack missing)
  case held => exact fun pack count full => reportsOnly_of_raise (bpFlush_held pack count full)
  case none =>
    intro empty
    have hbits : s.accBits = 0#6 := BitVec.eq_of_toNat_eq empty
    rw [bpFlush_flushed pack count room, if_pos hbits, ← hbits]
    rfl
  case some =>
    intro waiting
    have hbits : s.accBits ≠ 0#6 := fun h => waiting.ne' (congrArg BitVec.toNat h)
    refine ⟨?_, fun h j hj => ?_⟩
    · rw [bpFlush_flushed pack count room, if_neg hbits]
      rfl
    · exact Nat.testBit_eq_false_of_lt (h.clean.trans_le (Nat.pow_le_pow_right (by decide) hj))
  case aligned => exact fun h => accBits_eq_zero_of_aligned h pack count room

/-! UNPACK -/

/-- Settles O47: the two cases of BP_CFG_UNPACK. -/
theorem configureUnpack : Obligations.ConfigureUnpack := by
  refine ⟨decode_bpCfgUnpack,
    fun s need hneed => ⟨fun wide => reportsOnly_of_raise (bpCfgUnpack_refused wide), fun width => ?_⟩⟩
  rw [bpCfgUnpack_fresh width]
  exact freshStream_eq width s.arg0 s.arg2 s hneed

/-- Settles O48: the cases of BP_PUSH_BYTE; at most 32 bits waiting leave room for the byte. -/
theorem pushByte : Obligations.PushByte := by
  refine ⟨decode_bpPushByte, fun s => ⟨?refused, ?wide, ?complete, ?held, ?pushed⟩⟩
  case refused => exact fun h => reportsOnly_of_raise (bpPushByte_refused h)
  case wide => exact fun unpack running wide => reportsOnly_of_raise (bpPushByte_wide unpack running wide)
  case complete =>
    exact fun unpack running byte count => reportsOnly_of_raise (bpPushByte_complete unpack running byte count)
  case held =>
    exact fun unpack running byte count full => reportsOnly_of_raise (bpPushByte_held unpack running byte count full)
  case pushed =>
    intro unpack running byte count room h
    rw [bpPushByte_pushed unpack running byte count room, accIn_eq (k := 8) h.clean byte (by omega)]
    rfl

/-- The bound of BP_POP_VALUE on a value of a legal width, as numbers (R161). -/
theorem limit_reached_iff (limit : Word) {v w : Nat} (hv : v < 2 ^ w) (hw : w ≤ 32) :
    limit ≠ 0#32 ∧ limit ≤ BitVec.ofNat 32 v ↔ limit.toNat ≠ 0 ∧ limit.toNat ≤ v := by
  have hword : v < 2 ^ 32 := hv.trans_le (Nat.pow_le_pow_right (by decide) hw)
  rw [BitVec.le_def, BitVec.toNat_ofNat, Nat.mod_eq_of_lt hword, Ne, ← BitVec.toNat_inj]
  rfl

/-- Settles O49: the cases of BP_POP_VALUE, its bound compared as numbers. -/
theorem popValueCases : Obligations.PopValue := by
  refine ⟨decode_bpPopValue, fun s v hv => ⟨?refused, ?complete, ?truncated, ?held, ?bounded, ?popped⟩⟩
  case refused => exact fun h => reportsOnly_of_raise (bpPopValue_refused h)
  case complete => exact fun unpack count => reportsOnly_of_raise (bpPopValue_complete unpack count)
  case truncated =>
    intro unpack count short ended
    exact reportsOnly_of_raise (by rw [bpPopValue_short unpack count short, if_pos ended])
  case held =>
    intro unpack count short running
    exact reportsOnly_of_raise (by rw [bpPopValue_short unpack count short, running]; rfl)
  case bounded =>
    intro unpack count ready width limited reached
    have hlt : s.acc.toNat % 2 ^ s.w.toNat < 2 ^ s.w.toNat := Nat.mod_lt _ (by positivity)
    exact reportsOnly_of_raise
      (bpPopValue_bounded unpack count ready ((limit_reached_iff s.limit hlt width).2 ⟨limited, hv ▸ reached⟩))
  case popped =>
    intro unpack count ready width below
    have hlt : s.acc.toNat % 2 ^ s.w.toNat < 2 ^ s.w.toNat := Nat.mod_lt _ (by positivity)
    have hfree := (limit_reached_iff s.limit hlt width).not.2 (by omega)
    rw [bpPopValue_popped unpack count ready hfree, acc_ushiftRight_eq, accBits_sub_eq ready, ← hv]
    rfl

/-- Settles O50: the cases of BP_END, and BP_STOP. -/
theorem endAndStop : Obligations.EndAndStop := by
  refine ⟨decode_bpEnd, decode_bpStop, fun s => ⟨fun h => reportsOnly_of_raise (bpEnd_refused h), ?ended, ?stop⟩⟩
  case ended =>
    intro unpack
    rw [bpEnd_ended unpack]
    rfl
  case stop =>
    rw [exec_bpStop, succeed_eq, success, stopStream]

/-! A value that runs short (R164) -/

/-- With a value missing, BP_POP_VALUE ends with E_UNDERRUN or E_TRUNCATED_DATA exactly where bits of it are missing, and END
tells which. -/
theorem bpPopValue_short_iff {s t : State} (unpack : s.bpMode = .unpack) (count : s.vcount ≠ s.n)
    (he : exec .bpPopValue s = .next t) :
    (t.lastCode = .eTruncatedData ↔ s.accBits.toNat < s.w.toNat ∧ s.ended = true) ∧
    (t.lastCode = .eUnderrun ↔ s.accBits.toNat < s.w.toNat ∧ s.ended = false) := by
  obtain short | ready := lt_or_ge s.accBits.toNat s.w.toNat
  · cases (bpPopValue_short unpack count short).symm.trans he
    cases s.ended <;> simp [short]
  · by_cases bound : s.limit ≠ 0#32 ∧ s.limit ≤ BitVec.ofNat 32 (s.acc.toNat % 2 ^ s.w.toNat)
    · cases (bpPopValue_bounded unpack count ready bound).symm.trans he
      simp [ready]
    · cases (bpPopValue_popped unpack count ready bound).symm.trans he
      simp [ready]

/-- Settles O57: a value runs short where its last bit lies past the bytes pushed, and N*W bits lie within BNEED bytes. -/
theorem fullStreamNeverRunsShort : Obligations.FullStreamNeverRunsShort := by
  intro s t h unpack he
  have hneed := h.need
  have hbalance := (gear_unpack h unpack).2
  refine ⟨by omega, fun full missing => ?full, fun ended missing => ?ended⟩
  case full =>
    have ready : ¬ s.accBits.toNat < s.w.toNat := fun short => bcount_ne_of_short h unpack (vcount_ne_of_lt missing) short full
    obtain ⟨htruncated, hunderrun⟩ := bpPopValue_short_iff unpack (vcount_ne_of_lt missing) he
    exact ⟨fun hc => ready (hunderrun.1 hc).1, fun hc => ready (htruncated.1 hc).1⟩
  case ended =>
    rw [(bpPopValue_short_iff unpack (vcount_ne_of_lt missing) he).1, Nat.succ_mul s.vcount.toNat, hbalance]
    simp only [ended, and_true]
    omega

end Sys2Proof.Proofs
end

section
/-! The status codes, the commands that fail, and the fault bit (60_exceptions.md R200, R203, R212). -/

namespace Sys2Proof.Proofs

open Sys2Proof.Machine

/-! The numbers and the classes of the codes (R200) -/

theorem codeByte_eq_zero_iff (c : StatusCode) : codeByte c = 0#8 ↔ c = .ok := by
  cases c <;> decide

/-- OK alone is of class success. -/
theorem codeClass_eq_success_iff (c : StatusCode) : codeClass c = .success ↔ (codeByte c).toNat = 0 := by
  cases c <;> decide

/-- E_OVERRUN and E_UNDERRUN alone are of class hold. -/
theorem codeClass_eq_hold_iff (c : StatusCode) :
    codeClass c = .hold ↔ (codeByte c).toNat = 0x0B ∨ (codeByte c).toNat = 0x0C := by
  cases c <;> decide

/-- No command is refused or stops the machine: exec answers a next state, with OK or one of the command's codes. -/
theorem exec_ends_with_listed_code (i : Instr) (s : State) :
    ∃ t, exec i s = .next t ∧ t.lastCode ∈ .ok :: raisedBy i := by
  generalize hr : exec i s = r
  cases hr ▸ exec_answers i s with
  | raised c listed refused => exact ⟨report c s, rfl, by simp [listed]⟩
  | @succeeded u effect => exact ⟨success u, rfl, by simp⟩

/-- Settles O15: the two ways exec answers, and the table of the codes line by line. -/
theorem commandsEndWithAListedCode : Obligations.CommandsEndWithAListedCode :=
  ⟨exec_ends_with_listed_code, by decide, codeClass_eq_success_iff, codeClass_eq_hold_iff⟩

/-! Commands that do not succeed (R203) -/

section

variable {c : StatusCode}

theorem report_of_error (hc : codeClass c = .error) (s : State) :
    report c s = { s with lastCode := c, err := true, firstErr := if s.firstErr = .ok then c else s.firstErr } :=
  if_pos hc

theorem report_of_not_error (hc : codeClass c ≠ .error) (s : State) : report c s = { s with lastCode := c } :=
  if_neg hc

end

/-- A command word that did not succeed, an illegal one included, changed nothing but the report. -/
theorem command_failed {cw : Word} {s t : State} (h : command cw s = .next t) (hc : t.lastCode ≠ .ok) :
    t = report t.lastCode s := by
  obtain ⟨-, rfl⟩ | ⟨i, -, he⟩ := command_inversion h
  · rw [report_lastCode]
  · exact exec_failed he hc

/-- Settles O16: the state after a failed command is its report, of a code of class error or of another class. -/
theorem failedCommandsAreAllOrNothing : Obligations.FailedCommandsAreAllOrNothing := by
  intro cw s t h hc
  have hreport := command_failed h hc
  refine ⟨fun herror => ?error, fun hother => ?other⟩
  case error =>
    simp only [codeByte_eq_zero_iff]
    exact hreport.trans (report_of_error herror _)
  case other => exact hreport.trans (report_of_not_error hother _)

/-! The fault bit (R212) -/

section

variable {s t : State}

theorem command_busFault {cw : Word} (h : command cw s = .next t) : t.busFault = s.busFault := by
  obtain ⟨-, rfl⟩ | ⟨i, -, he⟩ := command_inversion h
  · rw [report_busFault]
  · exact (exec_run_frame he).2.2

theorem portWrite_busFault {off : Offset} {v : Word} (h : portWrite off v s = .next t) : t.busFault = s.busFault := by
  obtain ⟨-, hw⟩ | ⟨-, hw⟩ | ⟨-, hw⟩ | ⟨-, hw⟩ | ⟨-, hw⟩ := portWrite_cases off v s
  · exact command_busFault (hw.symm.trans h)
  all_goals
    cases hw.symm.trans h
    rfl

/-- A step that takes no refused access keeps the fault bit, RESET and the reset input included (log entry 5). -/
theorem step_busFault_of_not_refused (h : step s = .next t)
    (hok : ¬ ∃ e rest, s.pending = e :: rest ∧ e.wellFormed = false) : t.busFault = s.busFault := by
  obtain ⟨-, hs⟩ | ⟨_, _, _, -, -, hs⟩ | ⟨_, _, _, _, -, -, hs⟩ | ⟨e, rest, hp, he, -⟩ | ⟨_, -, hs⟩ := step_cases s
  · cases hs.symm.trans h; rfl
  · cases hs.symm.trans h; rfl
  · exact (portWrite_busFault (hs.symm.trans h)).trans (answer_busFault _ _)
  · exact absurd ⟨e, rest, hp, he⟩ hok
  · cases hs.symm.trans h; rfl

end

/-- Settles O10: a refused access sets the bit, and every other step keeps it. -/
theorem busFaultBitIsNeverCleared : Obligations.BusFaultBitIsNeverCleared := by
  intro s t h
  by_cases hbad : ∃ e rest, s.pending = e :: rest ∧ e.wellFormed = false
  · have hset : t.busFault = true := by
      obtain ⟨e, rest, hp, he⟩ := hbad
      cases (step_refused hp he).symm.trans h
      exact busError_busFault _
    exact iff_of_true hset (.inr hbad)
  · rw [step_busFault_of_not_refused h hbad, or_iff_left hbad]

end Sys2Proof.Proofs
end

section
/-! A command repeated after a hold (10_state.md R26; 70_reset_and_hazards.md R242). -/

namespace Sys2Proof.Proofs

open Sys2Proof.Machine

/-- No check and no effect of a command reads LASTCODE, and both its ends overwrite it (R26, R203). -/
theorem exec_with_lastCode (i : Instr) (c : StatusCode) (s : State) : exec i { s with lastCode := c } = exec i s := by
  cases i <;> rfl

section

variable {i : Instr} {s t : State}

/-- A hold leaves a state with another LASTCODE alone, so the command finds again what it found. -/
theorem exec_repeats_hold (h : exec i s = .next t) (hold : codeClass t.lastCode = .hold) : exec i t = .next t := by
  have hfail : t.lastCode ≠ .ok := fun hok => by rw [hok] at hold; cases hold
  have hother : codeClass t.lastCode ≠ .error := fun herror => by rw [herror] at hold; cases hold
  have ht : t = { s with lastCode := t.lastCode } := (exec_failed h hfail).trans (report_of_not_error hother s)
  calc exec i t = exec i { s with lastCode := t.lastCode } := congrArg (exec i) ht
    _ = exec i s := exec_with_lastCode i _ s
    _ = .next t := h

end

/-- Settles O24: a hold changes LASTCODE alone, which no command reads. -/
theorem holdRepeats : Obligations.HoldRepeats := fun _ _ _ => exec_repeats_hold

end Sys2Proof.Proofs
end

section
/-! Cures repeated until a hold ends, whatever the held command is (70_reset_and_hazards.md R242). -/

namespace Sys2Proof.Proofs

open Sys2Proof.Machine

/-- A hold leaves the invariant as it was, and the held command would hold again (R242). -/
theorem gearInv_of_hold {i : Instr} {s t : State} (h : GearInv s) (he : exec i s = .next t) {c : StatusCode}
    (hc : t.lastCode = c) (hold : codeClass c = .hold) : GearInv t ∧ exec i t = .next t :=
  ⟨exec_keeps_gearInv h he, exec_repeats_hold he (hc ▸ hold)⟩

theorem lastCode_of_raise {i : Instr} {s t : State} {c : StatusCode} (hr : exec i s = raise c s) (he : exec i s = .next t) :
    t.lastCode = c := by
  cases hr.symm.trans he
  exact report_lastCode c s

theorem holds_eq_false {r : Result} {t : State} (hr : r = .next t) (hc : codeClass t.lastCode ≠ .hold) : holds r = false := by
  rw [hr, holds_next, decide_eq_false hc]

/-- Repeating a cure ends a hold where the held command holds for as long as a measure is not 0: the cure makes it fall or
fails for good, and at measure 0 the held command ends with a code that is no hold. -/
theorem cureWhile_ends_hold {held : State → Result} {cure : Nat → State → Result} {Ready Done Good : State → Prop}
    {m : State → Nat}
    (free : ∀ u, Ready u → m u = 0 → holds (held u) = false ∧ Good u)
    (blocked : ∀ u, Ready u → 0 < m u → holds (held u) = true)
    (falls : ∀ k u, Ready u → 0 < m u → ∃ t, cure k u = .next t ∧ ((Ready t ∧ m t < m u) ∨ Done t))
    (stays : ∀ k u, Done u → ∃ t, cure k u = .next t ∧ Done t)
    (done : ∀ u, Done u → Good u) {k : Nat} {u : State} (ready : Ready u) (enough : m u ≤ k) :
    Good (cureWhile held cure k u) := by
  refine cureWhile_good (fun u h hm => (free u h hm).1) falls stays (fun u h hfree => ?_) done k u (.inl ⟨ready, enough⟩)
  obtain hm | hm := Nat.eq_zero_or_pos (m u)
  · exact (free u h hm).2
  · exact absurd ((blocked u h hm).symm.trans hfree) nofun

end Sys2Proof.Proofs
end

section
/-! E_OVERRUN in PACK, cured by BP_POP_BYTE (44_bit_packer.md R152 to R154; 70_reset_and_hazards.md R242). -/

namespace Sys2Proof.Proofs

open Sys2Proof.Machine

/-- What BP_PUSH_VALUE and BP_FLUSH ask of a PACK stream beside room in ACC (R152, R154). -/
def Due : Instr → State → Prop
  | .bpPushValue, s => s.arg0.toNat < 2 ^ s.w.toNat ∧ s.vcount ≠ s.n
  | .bpFlush, s => s.vcount = s.n
  | _, _ => False

/-- A PACK stream in which a command may wait for room in ACC, and for nothing else. -/
structure AwaitsRoom (i : Instr) (s : State) : Prop where
  gear : GearInv s
  pack : s.bpMode = .pack
  due : Due i s

section

variable {i : Instr} {s t : State}

theorem awaitsRoom_pushValue (gear : GearInv s) (he : exec .bpPushValue s = .next t) (hc : t.lastCode = .eOverrun) :
    AwaitsRoom .bpPushValue s ∧ 8 ≤ s.accBits.toNat := by
  have pack : s.bpMode = .pack := by
    by_contra h
    cases (lastCode_of_raise (bpPushValue_refused h) he).symm.trans hc
  have fits : s.arg0.toNat < 2 ^ s.w.toNat := by
    by_contra h
    cases (lastCode_of_raise (bpPushValue_unfit pack (not_lt.1 h)) he).symm.trans hc
  have count : s.vcount ≠ s.n := by
    intro h
    cases (lastCode_of_raise (bpPushValue_complete pack fits h) he).symm.trans hc
  refine ⟨⟨gear, pack, fits, count⟩, ?_⟩
  by_contra h
  cases (bpPushValue_pushed pack fits count (not_le.1 h)).symm.trans he
  cases hc

theorem awaitsRoom_flush (gear : GearInv s) (he : exec .bpFlush s = .next t) (hc : t.lastCode = .eOverrun) :
    AwaitsRoom .bpFlush s ∧ 8 ≤ s.accBits.toNat := by
  have pack : s.bpMode = .pack := by
    by_contra h
    cases (lastCode_of_raise (bpFlush_refused h) he).symm.trans hc
  have count : s.vcount = s.n := by
    by_contra h
    cases (lastCode_of_raise (bpFlush_incomplete pack h) he).symm.trans hc
  refine ⟨⟨gear, pack, count⟩, ?_⟩
  by_contra h
  cases (bpFlush_flushed pack count (not_le.1 h)).symm.trans he
  cases hc

theorem AwaitsRoom.held (h : AwaitsRoom i s) (full : 8 ≤ s.accBits.toNat) : exec i s = raise .eOverrun s := by
  cases i with
  | bpPushValue => exact bpPushValue_held h.pack h.due.1 h.due.2 full
  | bpFlush => exact bpFlush_held h.pack h.due full
  | _ => exact h.due.elim

theorem AwaitsRoom.succeeds (h : AwaitsRoom i s) (room : s.accBits.toNat < 8) :
    ∃ t, exec i s = .next t ∧ t.lastCode = .ok := by
  cases i with
  | bpPushValue => exact ⟨_, bpPushValue_pushed h.pack h.due.1 h.due.2 room, rfl⟩
  | bpFlush => exact ⟨_, bpFlush_flushed h.pack h.due room, rfl⟩
  | _ => exact h.due.elim

/-- A cure: ACC gives up 8 bits, and what the held command asks beside room is untouched. -/
theorem AwaitsRoom.popByte (h : AwaitsRoom i s) (full : 8 ≤ s.accBits.toNat) :
    ∃ t, exec .bpPopByte s = .next t ∧ t.lastCode = .ok ∧ t.accBits.toNat + 8 = s.accBits.toNat ∧ AwaitsRoom i t := by
  have he := bpPopByte_popped h.pack full
  have hbits : (s.accBits - 8#6).toNat = s.accBits.toNat - 8 := BitVec.toNat_sub_of_le full
  refine ⟨_, he, rfl, by dsimp only [success_accBits]; omega, exec_keeps_gearInv h.gear he, h.pack, ?_⟩
  cases i with
  | bpPushValue => exact h.due
  | bpFlush => exact h.due
  | _ => exact h.due.elim

/-- ACC holds at most 39 bits in PACK, so after 4 pops fewer than 8 are left. -/
theorem AwaitsRoom.pops_end_hold (h : AwaitsRoom i s) :
    ∃ v, exec i (cureWhile (exec i) (fun _ => exec .bpPopByte) 4 s) = .next v ∧ v.lastCode = .ok := by
  obtain ⟨-, -, hbits, -⟩ := gear_pack h.gear h.pack
  refine cureWhile_ends_hold (Ready := AwaitsRoom i) (Done := fun _ => False)
    (Good := fun u => ∃ v, exec i u = .next v ∧ v.lastCode = .ok) (m := fun u => u.accBits.toNat / 8)
    (fun u hu hm => ?free) (fun u hu hm => ?blocked) (fun _ u hu hm => ?falls)
    (fun _ _ => False.elim) (fun _ => False.elim) h (by omega)
  case free =>
    obtain ⟨v, hv, hok⟩ := hu.succeeds (by omega)
    exact ⟨holds_eq_false hv (by rw [hok]; decide), v, hv, hok⟩
  case blocked =>
    rw [hu.held (by omega)]
    rfl
  case falls =>
    obtain ⟨t, ht, -, hbits, hready⟩ := hu.popByte (by omega)
    exact ⟨t, ht, .inl ⟨hready, by omega⟩⟩

end

end Sys2Proof.Proofs
end

section
/-! E_OVERRUN in UNPACK, cured by BP_POP_VALUE (44_bit_packer.md R160, R161; 70_reset_and_hazards.md R242). -/

namespace Sys2Proof.Proofs

open Sys2Proof.Machine

/-- A report made twice is the report made once. -/
theorem report_report (c : StatusCode) (s : State) : report c (report c s) = report c s := by
  by_cases hc : codeClass c = .error
  · simp only [report_of_error hc]
    split_ifs <;> simp_all
  · simp only [report_of_not_error hc]

/-- An open UNPACK stream in which BP_PUSH_BYTE may wait for room in ACC, and for nothing else. -/
structure AwaitsRead (s : State) : Prop where
  gear : GearInv s
  unpack : s.bpMode = .unpack
  running : s.ended = false
  byte : s.arg0.toNat < 256
  count : s.bcount ≠ s.bneed

/-- A stream whose next value is out of range: each BP_POP_VALUE fails again and changes nothing. -/
structure OutOfRange (s : State) : Prop where
  code : s.lastCode = .eIndexOutOfRange
  again : exec .bpPopValue s = .next s

section

variable {s t : State}

theorem awaitsRead_of_overrun (gear : GearInv s) (he : exec .bpPushByte s = .next t) (hc : t.lastCode = .eOverrun) :
    AwaitsRead s ∧ 32 < s.accBits.toNat := by
  have accepted : ¬ (s.bpMode ≠ .unpack ∨ s.ended = true) := by
    intro h
    cases (lastCode_of_raise (bpPushByte_refused h) he).symm.trans hc
  obtain ⟨unpack, running⟩ : s.bpMode = .unpack ∧ s.ended = false := by simpa using accepted
  have byte : s.arg0.toNat < 256 := by
    by_contra h
    cases (lastCode_of_raise (bpPushByte_wide unpack running (not_lt.1 h)) he).symm.trans hc
  have count : s.bcount ≠ s.bneed := by
    intro h
    cases (lastCode_of_raise (bpPushByte_complete unpack running byte h) he).symm.trans hc
  refine ⟨⟨gear, unpack, running, byte, count⟩, ?_⟩
  by_contra h
  cases (bpPushByte_pushed unpack running byte count (not_lt.1 h)).symm.trans he
  cases hc

theorem AwaitsRead.held (h : AwaitsRead s) (full : 32 < s.accBits.toNat) : exec .bpPushByte s = raise .eOverrun s :=
  bpPushByte_held h.unpack h.running h.byte h.count full

theorem AwaitsRead.succeeds (h : AwaitsRead s) (room : s.accBits.toNat ≤ 32) :
    ∃ t, exec .bpPushByte s = .next t ∧ t.lastCode = .ok :=
  ⟨_, bpPushByte_pushed h.unpack h.running h.byte h.count room, rfl⟩

/-- While a byte is still to come, the bits read and the bits waiting are fewer than N*W; so a full ACC holds a value that
has bits. -/
theorem AwaitsRead.value_waits (h : AwaitsRead s) (full : 32 < s.accBits.toNat) :
    s.vcount.toNat < s.n.toNat ∧ 1 ≤ s.w.toNat := by
  have hbalance := (gear_unpack h.gear h.unpack).2
  have hneed := h.gear.need
  have hlt := bcount_lt h.gear h.count
  have hbits : s.vcount.toNat * s.w.toNat < s.n.toNat * s.w.toNat := by omega
  exact ⟨Nat.lt_of_mul_lt_mul_right hbits, Nat.pos_of_lt_mul_left hbits⟩

/-- A cure: ACC gives up W bits, or the value in it is out of range. -/
theorem AwaitsRead.popValue (h : AwaitsRead s) (full : 32 < s.accBits.toNat) :
    ∃ t, exec .bpPopValue s = .next t ∧
      (t.lastCode = .ok ∧ t.accBits.toNat + s.w.toNat = s.accBits.toNat ∧ AwaitsRead t ∨ OutOfRange t) := by
  have hwidth := h.gear.width
  have count := vcount_ne_of_lt (h.value_waits full).1
  have ready : s.w.toNat ≤ s.accBits.toNat := by omega
  by_cases bound : s.limit ≠ 0#32 ∧ s.limit ≤ BitVec.ofNat 32 (s.acc.toNat % 2 ^ s.w.toNat)
  · have again : exec .bpPopValue (report .eIndexOutOfRange s) = raise .eIndexOutOfRange (report .eIndexOutOfRange s) :=
      bpPopValue_bounded (by simpa using h.unpack) (by simpa using count) (by simpa using ready) (by simpa using bound)
    rw [raise_eq, report_report] at again
    exact ⟨_, bpPopValue_bounded h.unpack count ready bound, .inr ⟨report_lastCode _ s, again⟩⟩
  · have he := bpPopValue_popped h.unpack count ready bound
    have hbits : (s.accBits - s.w).toNat = s.accBits.toNat - s.w.toNat := BitVec.toNat_sub_of_le ready
    exact ⟨_, he, .inl ⟨rfl, by dsimp only [success_accBits]; omega,
      exec_keeps_gearInv h.gear he, h.unpack, h.running, h.byte, h.count⟩⟩

/-- ACC holds at most 40 bits, and each value that leaves it takes one bit at least. -/
theorem AwaitsRead.pops_end_hold (h : AwaitsRead s) :
    (cureWhile (exec .bpPushByte) (fun _ => exec .bpPopValue) 8 s).lastCode = .eIndexOutOfRange ∨
    ∃ v, exec .bpPushByte (cureWhile (exec .bpPushByte) (fun _ => exec .bpPopValue) 8 s) = .next v ∧ v.lastCode = .ok := by
  have hroom := h.gear.room
  refine cureWhile_ends_hold (Ready := AwaitsRead) (Done := OutOfRange)
    (Good := fun u => u.lastCode = .eIndexOutOfRange ∨ ∃ v, exec .bpPushByte u = .next v ∧ v.lastCode = .ok)
    (m := fun u => u.accBits.toNat - 32)
    (fun u hu hm => ?free) (fun u hu hm => ?blocked) (fun _ u hu hm => ?falls)
    (fun _ u hu => ⟨u, hu.again, hu⟩) (fun _ hu => .inl hu.code) h (by omega)
  case free =>
    obtain ⟨v, hv, hok⟩ := hu.succeeds (by omega)
    exact ⟨holds_eq_false hv (by rw [hok]; decide), .inr ⟨v, hv, hok⟩⟩
  case blocked =>
    rw [hu.held (by omega)]
    rfl
  case falls =>
    have hw := (hu.value_waits (by omega)).2
    obtain ⟨t, ht, ⟨-, hbits, hready⟩ | hout⟩ := hu.popValue (by omega)
    · exact ⟨t, ht, .inl ⟨hready, by omega⟩⟩
    · exact ⟨t, ht, .inr hout⟩

end

end Sys2Proof.Proofs
end

section
/-! E_UNDERRUN in UNPACK, cured by BP_PUSH_BYTE or turned into an error by BP_END (44_bit_packer.md R158, R160, R161;
70_reset_and_hazards.md R242). -/

namespace Sys2Proof.Proofs

open Sys2Proof.Machine

/-- An open UNPACK stream of width w in which BP_POP_VALUE may wait for bits, and for nothing else. -/
structure AwaitsByte (w : Nat) (s : State) : Prop where
  gear : GearInv s
  unpack : s.bpMode = .unpack
  running : s.ended = false
  count : s.vcount ≠ s.n
  width : s.w.toNat = w

section

variable {w : Nat} {s t : State}

theorem awaitsByte_of_underrun (gear : GearInv s) (he : exec .bpPopValue s = .next t) (hc : t.lastCode = .eUnderrun) :
    AwaitsByte s.w.toNat s ∧ s.accBits.toNat < s.w.toNat := by
  have unpack : s.bpMode = .unpack := by
    by_contra h
    cases (lastCode_of_raise (bpPopValue_refused h) he).symm.trans hc
  have count : s.vcount ≠ s.n := by
    intro h
    cases (lastCode_of_raise (bpPopValue_complete unpack h) he).symm.trans hc
  obtain ⟨short, running⟩ := (bpPopValue_short_iff unpack count he).2.1 hc
  exact ⟨⟨gear, unpack, running, count, rfl⟩, short⟩

theorem AwaitsByte.held (h : AwaitsByte w s) (short : s.accBits.toNat < w) : exec .bpPopValue s = raise .eUnderrun s := by
  rw [bpPopValue_short h.unpack h.count (h.width ▸ short), h.running]
  rfl

theorem AwaitsByte.ends (h : AwaitsByte w s) (ready : w ≤ s.accBits.toNat) :
    ∃ t, exec .bpPopValue s = .next t ∧ (t.lastCode = .ok ∨ t.lastCode = .eIndexOutOfRange) := by
  have ready : s.w.toNat ≤ s.accBits.toNat := h.width.trans_le ready
  by_cases bound : s.limit ≠ 0#32 ∧ s.limit ≤ BitVec.ofNat 32 (s.acc.toNat % 2 ^ s.w.toNat)
  · exact ⟨_, bpPopValue_bounded h.unpack h.count ready bound, .inr (report_lastCode _ s)⟩
  · exact ⟨_, bpPopValue_popped h.unpack h.count ready bound, .inl rfl⟩

/-- A cure: the stream takes any byte, and ACC gains 8 bits. -/
theorem AwaitsByte.pushByte (h : AwaitsByte w s) (short : s.accBits.toNat < w) {b : Word} (byte : b.toNat < 256) :
    ∃ t, exec .bpPushByte { s with arg0 := b } = .next t ∧ t.lastCode = .ok ∧
      t.accBits.toNat = s.accBits.toNat + 8 ∧ AwaitsByte w t := by
  have hwidth := h.gear.width
  have hw := h.width
  have count := bcount_ne_of_short h.gear h.unpack h.count (hw ▸ short)
  have hbits : (s.accBits + 8#6).toNat = s.accBits.toNat + 8 := BitVec.toNat_add_of_lt (by simp; omega)
  have he := bpPushByte_pushed (s := { s with arg0 := b }) h.unpack h.running byte count (by dsimp only; omega)
  exact ⟨_, he, rfl, hbits,
    exec_keeps_gearInv (gearInv_with_arg0 h.gear b) he, h.unpack, h.running, h.count, h.width⟩

/-- At most 32 bits are missing, which 4 bytes bring. -/
theorem AwaitsByte.pushes_end_hold (h : AwaitsByte w s) {bs : Nat → Word} (bytes : ∀ k, (bs k).toNat < 256) :
    ∃ v, exec .bpPopValue
        (cureWhile (exec .bpPopValue) (fun k u => exec .bpPushByte { u with arg0 := bs k }) 4 s) = .next v ∧
      (v.lastCode = .ok ∨ v.lastCode = .eIndexOutOfRange) := by
  have hwidth := h.gear.width
  have hw := h.width
  refine cureWhile_ends_hold (Ready := AwaitsByte w) (Done := fun _ => False)
    (Good := fun u => ∃ v, exec .bpPopValue u = .next v ∧ (v.lastCode = .ok ∨ v.lastCode = .eIndexOutOfRange))
    (m := fun u => (w - u.accBits.toNat + 7) / 8)
    (fun u hu hm => ?free) (fun u hu hm => ?blocked) (fun k u hu hm => ?falls)
    (fun _ _ => False.elim) (fun _ => False.elim) h (by omega)
  case free =>
    obtain ⟨v, hv, hend⟩ := hu.ends (by omega)
    exact ⟨holds_eq_false hv (by obtain hc | hc := hend <;> rw [hc] <;> decide), v, hv, hend⟩
  case blocked =>
    rw [hu.held (by omega)]
    rfl
  case falls =>
    obtain ⟨t, ht, -, hbits, hready⟩ := hu.pushByte (by omega) (bytes k)
    exact ⟨t, ht, .inl ⟨hready, by omega⟩⟩

/-- Once the input has ended, the missing bits never come (R158, R164). -/
theorem AwaitsByte.end_truncates (h : AwaitsByte w s) (short : s.accBits.toNat < w) :
    ∃ u v, exec .bpEnd s = .next u ∧ exec .bpPopValue u = .next v ∧ v.lastCode = .eTruncatedData :=
  ⟨_, _, bpEnd_ended h.unpack, bpPopValue_short h.unpack h.count (h.width ▸ short), report_lastCode _ _⟩

end

end Sys2Proof.Proofs
end

section
/-! E_UNDERRUN in PACK, cured by BP_PUSH_VALUE and, after the last value, by BP_FLUSH (44_bit_packer.md R152 to R154, R156;
70_reset_and_hazards.md R242). -/

namespace Sys2Proof.Proofs

open Sys2Proof.Machine

/-- A PACK stream of width w that misses at least as many values as ACC misses bits of a whole byte. -/
structure AwaitsValues (w : Nat) (s : State) : Prop where
  gear : GearInv s
  pack : s.bpMode = .pack
  width : s.w.toNat = w
  missing : s.vcount.toNat + 8 ≤ s.n.toNat + s.accBits.toNat

section

variable {w : Nat} {s t : State}

theorem short_of_underrun (he : exec .bpPopByte s = .next t) (hc : t.lastCode = .eUnderrun) :
    s.bpMode = .pack ∧ s.accBits.toNat < 8 := by
  have pack : s.bpMode = .pack := by
    by_contra h
    cases (lastCode_of_raise (bpPopByte_refused h) he).symm.trans hc
  refine ⟨pack, ?_⟩
  by_contra h
  cases (bpPopByte_popped pack (not_lt.1 h)).symm.trans he
  cases hc

/-- A cure while values are missing: the stream takes any value that fits, and ACC gains W bits. -/
theorem pushValue_adds_width (gear : GearInv s) (pack : s.bpMode = .pack) (room : s.accBits.toNat < 8)
    (count : s.vcount ≠ s.n) {v : Word} (fits : v.toNat < 2 ^ s.w.toNat) :
    ∃ t, exec .bpPushValue { s with arg0 := v } = .next t ∧ t.lastCode = .ok ∧
      t.accBits.toNat = s.accBits.toNat + s.w.toNat := by
  have hwidth := gear.width
  have hbits : (s.accBits + s.w).toNat = s.accBits.toNat + s.w.toNat := BitVec.toNat_add_of_lt (by omega)
  exact ⟨_, bpPushValue_pushed (s := { s with arg0 := v }) pack fits count room, rfl, hbits⟩

theorem AwaitsValues.pushValue (h : AwaitsValues w s) (bits : 1 ≤ w) (room : s.accBits.toNat < 8) {v : Word}
    (fits : v.toNat < 2 ^ w) :
    ∃ t, exec .bpPushValue { s with arg0 := v } = .next t ∧ t.accBits.toNat = s.accBits.toNat + w ∧ AwaitsValues w t := by
  have hmissing := h.missing
  have hgear := gearInv_with_arg0 h.gear v
  have count : s.vcount ≠ s.n := vcount_ne_of_lt (by omega)
  obtain ⟨t, he, hok, hbits⟩ := pushValue_adds_width h.gear h.pack room count (h.width.symm ▸ fits)
  obtain ⟨hw, hn, -, -⟩ := exec_stream_frame he (by decide)
  obtain ⟨hv, -⟩ := (streamCountersMoveByOne _ _ _ hgear he).1 (by decide) hok
  rw [h.width] at hbits
  exact ⟨t, he, hbits, exec_keeps_gearInv hgear he, (exec_bpMode_frame he (by decide)).trans h.pack, hw ▸ h.width,
    by rw [hv, hn, hbits]; dsimp only; omega⟩

/-- Each value brings one bit at least. -/
theorem AwaitsValues.pushes_end_hold (h : AwaitsValues w s) (bits : 1 ≤ w) {vs : Nat → Word}
    (fit : ∀ k, (vs k).toNat < 2 ^ w) :
    ∃ v, exec .bpPopByte
        (cureWhile (exec .bpPopByte) (fun k u => exec .bpPushValue { u with arg0 := vs k }) 8 s) = .next v ∧
      v.lastCode = .ok := by
  refine cureWhile_ends_hold (Ready := AwaitsValues w) (Done := fun _ => False)
    (Good := fun u => ∃ v, exec .bpPopByte u = .next v ∧ v.lastCode = .ok) (m := fun u => 8 - u.accBits.toNat)
    (fun u hu hm => ?free) (fun u hu hm => ?blocked) (fun k u hu hm => ?falls)
    (fun _ _ => False.elim) (fun _ => False.elim) h (Nat.sub_le 8 _)
  case free =>
    have he := bpPopByte_popped hu.pack (by omega)
    exact ⟨holds_eq_false he nofun, _, he, rfl⟩
  case blocked =>
    rw [bpPopByte_held hu.pack (by omega)]
    rfl
  case falls =>
    obtain ⟨t, ht, hbits, hready⟩ := hu.pushValue bits (by omega) (fit k)
    exact ⟨t, ht, .inl ⟨hready, by omega⟩⟩

/-- The cure after the last value: the bits waiting, if any, become one whole byte. -/
theorem flush_ends_hold (pack : s.bpMode = .pack) (room : s.accBits.toNat < 8) (count : s.vcount = s.n) :
    ∃ u, exec .bpFlush s = .next u ∧ u.lastCode = .ok ∧
      (0 < s.accBits.toNat → ∃ v, exec .bpPopByte u = .next v ∧ v.lastCode = .ok) := by
  refine ⟨_, bpFlush_flushed pack count room, rfl, fun waiting => ⟨_, bpPopByte_popped pack ?_, rfl⟩⟩
  obtain ⟨hempty, -⟩ | ⟨-, hbyte⟩ := flushedBits_toNat s.accBits
  · omega
  · exact hbyte.ge

end

/-- Settles O25: the hold says what the stream waits for, and the cure of each of the four kinds brings it. -/
theorem holdsHaveCures : Obligations.HoldsHaveCures := by
  intro s t h
  refine ⟨fun i hi he hc => ?packOverrun, fun he hc => ?unpackOverrun, fun he hc => ?unpackUnderrun,
    fun he hc => ?packUnderrun⟩ <;> obtain ⟨gear, held⟩ := gearInv_of_hold h he hc rfl
  case packOverrun =>
    obtain ⟨hready, full⟩ : AwaitsRoom i t ∧ 8 ≤ t.accBits.toNat := by
      obtain rfl | rfl := hi
      · exact awaitsRoom_pushValue gear held hc
      · exact awaitsRoom_flush gear held hc
    obtain ⟨u, hu, hok, hbits, -⟩ := hready.popByte full
    exact ⟨⟨u, hu, hok, hbits⟩, hready.pops_end_hold⟩
  case unpackOverrun =>
    obtain ⟨hready, full⟩ := awaitsRead_of_overrun gear held hc
    obtain ⟨hvalue, hwidth⟩ := hready.value_waits full
    obtain ⟨u, hu, hpop⟩ := hready.popValue full
    exact ⟨hvalue, hwidth, ⟨u, hu, hpop.imp (fun ⟨hok, hbits, _⟩ => ⟨hok, hbits⟩) OutOfRange.code⟩, hready.pops_end_hold⟩
  case unpackUnderrun =>
    obtain ⟨hready, short⟩ := awaitsByte_of_underrun gear held hc
    refine ⟨fun b byte => ?_, fun bs bytes => hready.pushes_end_hold bytes, hready.end_truncates short⟩
    obtain ⟨u, hu, hok, hbits, -⟩ := hready.pushByte short byte
    exact ⟨u, hu, hok, hbits⟩
  case packUnderrun =>
    obtain ⟨pack, room⟩ := short_of_underrun held hc
    exact ⟨fun count v fits => pushValue_adds_width gear pack room count fits,
      fun bits missing vs fit =>
        AwaitsValues.pushes_end_hold ⟨gear, pack, rfl, missing.trans (Nat.le_add_right _ _)⟩ bits fit,
      flush_ends_hold pack room⟩

end Sys2Proof.Proofs
end
